-- ==== Sys2Proof/Word.lean ====
section
/-! DEFINITION. The words of DT2-CFS: bytes (R10), 16-bit command words (R70), 32-bit registers (R33),
20-bit raw fields (R120) and 4-bit register addresses (R50). -/

namespace Sys2Proof

/-- A byte: a frame byte, a CRC value, the DATA field of a command (R10, R72). -/
abbrev Byte := BitVec 8

/-- A command word as it stands on the `cmd` port (R44, R70). -/
abbrev Cmd := BitVec 16

/-- The 32-bit value of a register (R33, R57). -/
abbrev Word := BitVec 32

/-- A 20-bit raw field (R120). -/
abbrev Raw := BitVec 20

/-- A 4-bit register address (R50, R72). -/
abbrev RegAddr := BitVec 4

/-- A frame: seven bytes, byte 0 first (R120). -/
abbrev Frame := Vector Byte 7

end Sys2Proof
end

