-- ==== Sys2Proof/Syntax.lean ====
section
/-! DEFINITION. The commands of DT2-CFS as syntax: one constructor for each row of
spec/opcode_table.json (R73). -/

namespace Sys2Proof

/-- A command with its operands decoded (R72, R73). -/
inductive Instr where
  /-- No operation (R171). -/
  | nop
  /-- Discard any partial frame and begin a new one (R172). -/
  | start
  /-- Accept the next byte of the frame (R173). -/
  | push (b : Byte)
  /-- The host's read of the frame failed (R180). -/
  | abort
  /-- Return one register (R200). -/
  | read (a : RegAddr)
deriving DecidableEq, Repr

end Sys2Proof
end

