-- ==== Sys2Proof/WellFormed.lean ====
section
/-! DEFINITION. Which terms of `Instr` stand for a legal command word. -/

namespace Sys2Proof

/-- READ names a register of the map: addresses 0x0 to 0xE (R73, R76, R201). -/
def readableAddr (a : RegAddr) : Bool := decide (a.toNat ≤ 0xE)

/-- The command has a word among the legal words of R73. -/
def Instr.wf : Instr → Bool
  | .nop => true
  | .start => true
  | .push _ => true
  | .abort => true
  | .read a => readableAddr a

end Sys2Proof
end

