-- ==== Sys2Proof/Decode.lean ====
section
/-! DEFINITION. Command words and commands: the three fields of a word (R70), `decode` (R78), total and
rejecting by name, and `encode`, written from the encoding table (R73). -/

namespace Sys2Proof

/-- `cmd[15:12]`, the operation code (R70). -/
def opField (w : Cmd) : BitVec 4 := w.extractLsb' 12 4

/-- `cmd[11:8]`, the register address (R70, R72). -/
def addrField (w : Cmd) : RegAddr := w.extractLsb' 8 4

/-- `cmd[7:0]`, the byte operand (R70, R72). -/
def dataField (w : Cmd) : Byte := w.extractLsb' 0 8

/-- Why a word is illegal. The block records no cause (R226); the names are the decoder's own (log 7). -/
inductive Illegal where
  /-- OP is one of 0x5 to 0xF (R75). -/
  | reservedOp
  /-- ADDR is not zero where R73 requires zero (R74). -/
  | nonzeroAddr
  /-- DATA is not zero where R73 requires zero (R74). -/
  | nonzeroData
  /-- READ of address 0xF (R76). -/
  | reservedRegister
deriving DecidableEq, Repr

/-- The result of decoding a word (R78): a command, or ILLEGAL. -/
inductive Decoded where
  | legal (i : Instr)
  | illegal (why : Illegal)
deriving DecidableEq, Repr

/-- A command with no operand: ADDR and DATA must be zero (R73, R74). -/
def decodePlain (i : Instr) (w : Cmd) : Decoded :=
  if addrField w ≠ 0 then .illegal .nonzeroAddr
  else if dataField w ≠ 0 then .illegal .nonzeroData
  else .legal i

/-- PUSH: ADDR must be zero, DATA is the byte (R73, R74). -/
def decodePush (w : Cmd) : Decoded :=
  if addrField w ≠ 0 then .illegal .nonzeroAddr else .legal (.push (dataField w))

/-- READ: DATA must be zero, ADDR is the register, 0xF names none (R73, R74, R76). -/
def decodeRead (w : Cmd) : Decoded :=
  if dataField w ≠ 0 then .illegal .nonzeroData
  else if readableAddr (addrField w) then .legal (.read (addrField w))
  else .illegal .reservedRegister

/-- `decode` of R78, one case for each operation code of the opcode map (R73, R75). -/
def decode (w : Cmd) : Decoded :=
  match (opField w).toNat with
  | 0x0 => decodePlain .nop w
  | 0x1 => decodePlain .start w
  | 0x2 => decodePush w
  | 0x3 => decodePlain .abort w
  | 0x4 => decodeRead w
  | _ => .illegal .reservedOp

/-- The word of a command: OP, ADDR and DATA side by side (R70, R73). Only a well-formed command's word
is legal. -/
def encode : Instr → Cmd
  | .nop => 0x0#4 ++ 0x0#4 ++ 0x00#8
  | .start => 0x1#4 ++ 0x0#4 ++ 0x00#8
  | .push b => 0x2#4 ++ 0x0#4 ++ b
  | .abort => 0x3#4 ++ 0x0#4 ++ 0x00#8
  | .read a => 0x4#4 ++ a ++ 0x00#8

/-- A row's bits as the opcode table numbers them, as the word on the `cmd` port: every command is 16
bits in parallel (R71), so bit k of the table is bit k of `cmd`, and bits from `nbits` on are zero. -/
def tableCmd (nbits w : Nat) : Cmd := BitVec.ofNat 16 (w % 2 ^ nbits)

/-- The command the decoder reads from an opcode-table word, none where it is illegal. -/
def decodeTableWord (nbits w : Nat) : Option Instr :=
  match decode (tableCmd nbits w) with
  | .legal i => some i
  | .illegal _ => none

end Sys2Proof
end

