-- ==== Sys2Proof/Machine/Crc8.lean ====
section
/-! DEFINITION. The CRC-8 engine (40_crc8): polynomial 0x31, initial value 0xFF, not reflected, no final
XOR (R100). -/

namespace Sys2Proof.Machine

/-- The seed of every CRC (R100, R102). -/
def crcInit : Byte := 0xFF

/-- The feedback constant: x^8 + x^5 + x^4 + 1 without x^8 (R101). -/
def crcPoly : Byte := 0x31

/-- One iteration of the bit loop: shift left in 8 bits, feed back if bit 7 was set (R101). -/
def crcShift (c : Byte) : Byte :=
  if c.getLsbD 7 then (c <<< 1) ^^^ crcPoly else c <<< 1

/-- `crc8_step(c, b)` (R101). -/
def crc8Step (c b : Byte) : Byte := Nat.repeat crcShift 8 (c ^^^ b)

/-- `crc8(b_0, ..., b_(n-1))` (R102). -/
def crc8 (bytes : List Byte) : Byte := bytes.foldl crc8Step crcInit

/-- The CRC over the span of a frame, bytes 0 to 5 (R103). -/
def frameCrc (f : Frame) : Byte := crc8 (f.toList.take 6)

end Sys2Proof.Machine
end

