-- ==== Sys2Proof/Machine/Fields.lean ====
section
/-! DEFINITION. The frame layout and the bit-field extractor (41_fields). -/

namespace Sys2Proof.Machine

/-- `extract_h(F)`, the raw humidity (R122): the bytes are widened to 20 bits before they are shifted. -/
def extractH (f : Frame) : Raw :=
  (f[1].setWidth 20 <<< 12) ||| (f[2].setWidth 20 <<< 4) ||| (f[3].setWidth 20 >>> 4)

/-- `extract_t(F)`, the raw temperature (R123). -/
def extractT (f : Frame) : Raw :=
  ((f[3] &&& 0x0F).setWidth 20 <<< 16) ||| (f[4].setWidth 20 <<< 8) ||| f[5].setWidth 20

/-- Bytes 0 to 5 of the frame with status byte `s` and raw fields `h` and `t` (R126). -/
def frameData (s : Byte) (h t : Raw) : Vector Byte 6 :=
  #v[s, h.extractLsb' 12 8, h.extractLsb' 4 8, h.extractLsb' 0 4 ++ t.extractLsb' 16 4,
    t.extractLsb' 8 8, t.extractLsb' 0 8]

/-- The frame of R126: the data bytes, and the CRC that makes it match. -/
def makeFrame (s : Byte) (h t : Raw) : Frame :=
  (frameData s h t).push (crc8 (frameData s h t).toList)

end Sys2Proof.Machine
end

