-- ==== Sys2Proof/Config.lean ====
section
/-! DEFINITION. What the spec leaves open. R9 fixes every parameter of the block ("None is a free
parameter of the model"), so the one open value is the content of the receive buffer after a
reset edge (R250 "any value", 93_implementation_defined I3). -/

namespace Sys2Proof

/-- The free values: the k-th byte the model draws where the spec says "any value". It has no body, so
no proof can depend on which byte it is. Used for `RX` at a reset edge (R25, R250; log 3). -/
opaque Config.freeByte : Nat → Byte

end Sys2Proof
end

