-- ==== Sys2Proof/Machine/State.lean ====
section
/-! DEFINITION. The state of DT2-CFS (R22), as plain data, the state after reset (R250), and the reasons
a step could stop. -/

namespace Sys2Proof.Machine

/-- The input ports as one rising edge of `clk` samples them (R44, R45). -/
structure Edge where
  /-- `rst`, synchronous reset, active high. -/
  rst : Bool
  /-- `cmd_valid`: `cmd` carries a command at this edge. -/
  cmdValid : Bool
  /-- `cmd`, the command word. -/
  cmd : Cmd
deriving DecidableEq, Repr

/-- The complete state of R22, and two fields of the model's own (the last two). -/
structure State where
  /-- `CNT`: bytes of the current frame received so far, 0 to 6 (R22, R23; log 4). -/
  cnt : Fin 7
  /-- `ACC`: running CRC-8 of the current frame (R22, R24). -/
  acc : Byte
  /-- `RX[0..5]`: receive buffer (R22, R25). -/
  rx : Vector Byte 6
  /-- `FRAME[0..6]`: the last completed frame (R22, R26). -/
  frame : Frame
  /-- `CRCC`: CRC-8 over FRAME[0..5] (R22, R27). -/
  crcc : Byte
  /-- `RES`: outcome of the last completed or aborted frame (R22, R28, R220). -/
  res : BitVec 3
  /-- `VALID`: a frame has committed a reading (R22, R29). -/
  valid : Bool
  /-- `ILL`: sticky, an illegal command has been received (R22, R30). -/
  ill : Bool
  /-- `RAW_H`: committed raw humidity (R22, R31). -/
  rawH : Raw
  /-- `RAW_T`: committed raw temperature (R22, R31). -/
  rawT : Raw
  /-- `RDATA`: data of the last legal READ (R22, R32). -/
  rdata : Word
  /-- The model's own: what the host drives on the ports at the coming rising edges, nearest first
  (R44, R45; log 1). After the last one the host is idle. -/
  edges : List Edge
  /-- The model's own: how many free values `RX` has taken so far (log 3). -/
  freeIdx : Nat
deriving DecidableEq, Repr

/-- Why the machine stops with a fault: never. "DT2-CFS raises no traps", and no outcome and no illegal
command stops the block (R227), so there is no constructor. -/
inductive Fault
deriving DecidableEq, Repr

/-- Why an instruction has no meaning. -/
inductive Refusal where
  /-- Raised by `exec` for an instruction whose meaning is not written yet (safe). No arm uses it. -/
  | notModelled (mnemonic : String)
deriving DecidableEq, Repr

/-- The state after reset (R250). The spec gives no value for `RX` ("any value"): 0x00 is chosen, as in
the reference of 95_test_vectors (log 2). No edge is waiting (log 1). -/
def State.reset : State where
  cnt := 0
  acc := 0xFF
  rx := #v[0x00, 0x00, 0x00, 0x00, 0x00, 0x00]
  frame := #v[0x00, 0x00, 0x00, 0x00, 0x00, 0x00, 0x00]
  crcc := 0x6A
  res := 0
  valid := false
  ill := false
  rawH := 0
  rawT := 0
  rdata := 0x00000000
  edges := []
  freeIdx := 0

end Sys2Proof.Machine
end

