-- ==== Sys2Proof/Machine/Flags.lean ====
section
/-! DEFINITION. The status flags and the outcome of a frame (10_state R42; 60_exceptions R220, R228). -/

namespace Sys2Proof.Machine

/-- `busy(F) = F[0][7]` (R121); of the last completed frame, STATUS.BUSYF (R34). -/
def busyFlag (f : Frame) : Bool := f[0].getLsbD 7

/-- `cal(F) = F[0][3]` (R121); of the last completed frame, STATUS.CALF (R34). -/
def calFlag (f : Frame) : Bool := f[0].getLsbD 3

/-- `crc_match(F)` (R104). -/
def crcMatch (f : Frame) : Bool := decide (frameCrc f = f[6])

/-- NONE: no frame completed or aborted since reset (R220). -/
def resNone : BitVec 3 := 0

/-- OK: frame completed, busy flag clear, CRC match (R220). -/
def resOk : BitVec 3 := 1

/-- BUSY: frame completed, busy flag set (R220). -/
def resBusy : BitVec 3 := 2

/-- CRC_FAIL: frame completed, busy flag clear, CRC mismatch (R220). -/
def resCrcFail : BitVec 3 := 3

/-- READ_FAIL: the host reported a failed frame read (R220). -/
def resReadFail : BitVec 3 := 4

/-- The outcome of a completing PUSH, from the frame `f` and the running CRC `acc` over its bytes 0 to 5:
the busy flag is looked at first, the CRC only then (R173, R177, R228). -/
def outcomeOf (f : Frame) (acc : Byte) : BitVec 3 :=
  if busyFlag f then resBusy else if acc ≠ f[6] then resCrcFail else resOk

/-- The `rdata` output (R44). -/
def rdataPort (s : State) : Word := s.rdata

/-- The `ill` output, a level that shows ILL (R44, R230). -/
def illPort (s : State) : Bool := s.ill

end Sys2Proof.Machine
end

