-- ==== Sys2Proof/Machine/Scaler.lean ====
section
/-! DEFINITION. The fixed-point scaler (42_scaler): pure functions of the committed raw fields, over the
integers (R11, R140). A Q.20 value q stands for q / 2^20. -/

namespace Sys2Proof.Machine

/-- `hum_q(h) = 100 * h`, %RH in Q.20 (R141). -/
def humQ (h : Raw) : Int := 100 * (h.toNat : Int)

/-- `tc_q(t) = 200 * t - 50 * 2^20`, °C in Q.20 (R142). -/
def tcQ (t : Raw) : Int := 200 * (t.toNat : Int) - 50 * 2 ^ 20

/-- `tf_q(t) = 360 * t - 58 * 2^20`, °F in Q.20 (R143). -/
def tfQ (t : Raw) : Int := 360 * (t.toNat : Int) - 58 * 2 ^ 20

/-- A centi value: sign and magnitude in hundredths (R148). -/
structure Centi where
  /-- s, 1 when the exact value is negative. -/
  neg : Bool
  /-- m, the magnitude in hundredths. -/
  mag : Nat
deriving DecidableEq, Repr

/-- `centi(q)` (R148): the sign of the exact value (R151), the magnitude rounded half up (R149). -/
def centi (q : Int) : Centi where
  neg := decide (q < 0)
  mag := (q.natAbs * 100 + 2 ^ 19) / 2 ^ 20

/-- The digit view (R152). -/
structure Digits where
  /-- s, as in the centi value. -/
  neg : Bool
  /-- r, RANGE: the digits have wrapped. -/
  range : Bool
  /-- tens digit -/
  d3 : Nat
  /-- units digit -/
  d2 : Nat
  /-- tenths digit -/
  d1 : Nat
  /-- hundredths digit -/
  d0 : Nat
deriving DecidableEq, Repr

/-- `digits(q)` (R152): the digits wrap, they are not clamped (R153). -/
def digits (q : Int) : Digits where
  neg := (centi q).neg
  range := decide (10000 ≤ (centi q).mag)
  d3 := (centi q).mag / 1000 % 10
  d2 := (centi q).mag / 100 % 10
  d1 := (centi q).mag / 10 % 10
  d0 := (centi q).mag % 10

end Sys2Proof.Machine
end

