-- ==== Sys2Proof/Machine/Operands.lean ====
section
/-! DEFINITION. The register operand of READ: the register map `REG(a)` (10_state R33 to R41). Every
register is a pure view of the state; every reserved bit is a constant zero. The byte operand of PUSH
needs no more than its field (R72). -/

namespace Sys2Proof.Machine

/-- STATUS (R34): reserved 31:10, CALF 9, BUSYF 8, ILL 7, CNT 6:4, VALID 3, RES 2:0. -/
def statusReg (s : State) : Word :=
  0#22 ++ BitVec.ofBool (calFlag s.frame) ++ BitVec.ofBool (busyFlag s.frame) ++ BitVec.ofBool s.ill ++
    BitVec.ofNat 3 s.cnt.val ++ BitVec.ofBool s.valid ++ s.res

/-- CRC (R35): reserved 31:24, ACC 23:16, RECV 15:8, CALC 7:0. -/
def crcReg (s : State) : Word := 0#8 ++ s.acc ++ s.frame[6] ++ s.crcc

/-- FRAME0 (R36): byte i of the frame in bits 8i+7 to 8i. -/
def frame0Reg (s : State) : Word := s.frame[3] ++ s.frame[2] ++ s.frame[1] ++ s.frame[0]

/-- FRAME1 (R36): frame bytes 6, 5, 4 from bit 23 down; bits 31:24 zero. -/
def frame1Reg (s : State) : Word := 0#8 ++ s.frame[6] ++ s.frame[5] ++ s.frame[4]

/-- RAWH and RAWT (R37): a raw field zero-extended. -/
def rawReg (r : Raw) : Word := r.setWidth 32

/-- HUMQ, TCQ and TFQ (R38): a Q.20 value in 32-bit two's complement (`twos_32` of R11, which is `zext_32`
for a value that is not negative). -/
def qReg (q : Int) : Word := BitVec.ofInt 32 q

/-- A centi register (R39): NEG 31, reserved 30:16, MAG 15:0. -/
def centiReg (q : Int) : Word :=
  BitVec.ofBool (centi q).neg ++ 0#15 ++ BitVec.ofNat 16 (centi q).mag

/-- A digit register (R40): NEG 31, reserved 30:17, RANGE 16, D3 15:12, D2 11:8, D1 7:4, D0 3:0. -/
def digitReg (q : Int) : Word :=
  BitVec.ofBool (digits q).neg ++ 0#14 ++ BitVec.ofBool (digits q).range ++ BitVec.ofNat 4 (digits q).d3 ++
    BitVec.ofNat 4 (digits q).d2 ++ BitVec.ofNat 4 (digits q).d1 ++ BitVec.ofNat 4 (digits q).d0

/-- `REG(a)` (R33); none for the reserved address 0xF, where no register exists. -/
def regValue (s : State) (a : RegAddr) : Option Word :=
  match a.toNat with
  | 0x0 => some (statusReg s)
  | 0x1 => some (crcReg s)
  | 0x2 => some (frame0Reg s)
  | 0x3 => some (frame1Reg s)
  | 0x4 => some (rawReg s.rawH)
  | 0x5 => some (rawReg s.rawT)
  | 0x6 => some (qReg (humQ s.rawH))
  | 0x7 => some (qReg (tcQ s.rawT))
  | 0x8 => some (qReg (tfQ s.rawT))
  | 0x9 => some (centiReg (humQ s.rawH))
  | 0xA => some (centiReg (tcQ s.rawT))
  | 0xB => some (centiReg (tfQ s.rawT))
  | 0xC => some (digitReg (humQ s.rawH))
  | 0xD => some (digitReg (tcQ s.rawT))
  | 0xE => some (digitReg (tfQ s.rawT))
  | _ => none

end Sys2Proof.Machine
end

