-- ==== Sys2Proof/Machine/Ops.lean ====
section
/-! DEFINITION. The operations the commands share: closing and assembling a frame, completing it,
raising ILL, and what a reset edge does. -/

namespace Sys2Proof.Machine

/-- `raise ILL`: ILL <- 1 and no other change (R12, R226). It is the block's only exception, and it
transfers control nowhere (R227). -/
def raiseIll (s : State) : State := { s with ill := true }

/-- CNT <- 0 and ACC <- 0xFF: START, ABORT and the end of a completing PUSH (R172, R176, R180). -/
def rearm (s : State) : State := { s with cnt := 0, acc := crcInit }

/-- RES <- an outcome code (R220). -/
def setOutcome (r : BitVec 3) (s : State) : State := { s with res := r }

/-- The accumulating case of PUSH, for CNT = i < 6: RX[i] <- b, the CRC folds b in, CNT <- i + 1 (R173,
R175). -/
def accumulate (b : Byte) (s : State) : State :=
  { s with rx := s.rx.setIfInBounds s.cnt.val b, acc := crc8Step s.acc b, cnt := s.cnt + 1 }

/-- The frame a completing PUSH delivers: RX[0..5] followed by b (R176). -/
def receivedFrame (b : Byte) (s : State) : Frame := s.rx.push b

/-- FRAME <- f, as a whole, and CRCC <- ACC (R26, R176). -/
def latchFrame (f : Frame) (s : State) : State := { s with frame := f, crcc := s.acc }

/-- The commit: RAW_H, RAW_T and VALID in one step (R178). -/
def commit (f : Frame) (s : State) : State :=
  { s with rawH := extractH f, rawT := extractT f, valid := true }

/-- Record outcome `r` of frame `f`, and commit the reading only if it is OK (R177 to R179). -/
def recordOutcome (r : BitVec 3) (f : Frame) (s : State) : State :=
  if r = resOk then commit f (setOutcome r s) else setOutcome r s

/-- The completing case of PUSH, CNT = 6 (R173, R176). -/
def complete (b : Byte) (s : State) : State :=
  let f := receivedFrame b s
  rearm (recordOutcome (outcomeOf f s.acc) f (latchFrame f s))

/-- What RX holds after a reset edge: any value (R250), six free values (log 3). -/
def freeRx (k : Nat) : Vector Byte 6 :=
  #v[Config.freeByte k, Config.freeByte (k + 1), Config.freeByte (k + 2), Config.freeByte (k + 3),
    Config.freeByte (k + 4), Config.freeByte (k + 5)]

/-- A rising edge with rst = 1: every element takes its reset value, whatever the state before it (R250,
R252). RX takes free values; the host's coming inputs stay. -/
def resetEdge (s : State) : State :=
  { State.reset with rx := freeRx s.freeIdx, freeIdx := s.freeIdx + 6, edges := s.edges }

end Sys2Proof.Machine
end

