-- ==== Sys2Proof/Machine/Framer.lean ====
section
/-! DEFINITION. The framer commands NOP, START, PUSH and ABORT (43_frame_ops). -/

namespace Sys2Proof.Machine

/-- NOP: nothing is written (R171). -/
def execNop (s : State) : Host.Outcome State Fault Refusal := .next s

/-- START: discard any partial frame and begin a new one (R172). -/
def execStart (s : State) : Host.Outcome State Fault Refusal := .next (rearm s)

/-- PUSH b: dispatches on CNT alone (R173, R174). -/
def execPush (b : Byte) (s : State) : Host.Outcome State Fault Refusal :=
  if s.cnt.val < 6 then .next (accumulate b s) else .next (complete b s)

/-- ABORT: the read of the frame failed (R180). -/
def execAbort (s : State) : Host.Outcome State Fault Refusal := .next (setOutcome resReadFail (rearm s))

end Sys2Proof.Machine
end

