-- ==== Sys2Proof/Machine/Readback.lean ====
section
/-! DEFINITION. The readback command READ (44_readback). -/

namespace Sys2Proof.Machine

/-- READ a: RDATA <- REG(a) (R200); an address that names no register raises ILL (R201). -/
def execRead (a : RegAddr) (s : State) : Host.Outcome State Fault Refusal :=
  match regValue s a with
  | some v => .next { s with rdata := v }
  | none => .next (raiseIll s)

end Sys2Proof.Machine
end

