-- ==== Sys2Proof/Machine/Dispatch.lean ====
section
/-! DEFINITION. One arm for each command: its meaning (R73). -/

namespace Sys2Proof.Machine

def exec (i : Instr) (s : State) : Host.Outcome State Fault Refusal :=
  match i with
  | .nop => Sys2Proof.Machine.execNop s
  | .start => Sys2Proof.Machine.execStart s
  | .push b => Sys2Proof.Machine.execPush b s
  | .abort => Sys2Proof.Machine.execAbort s
  | .read a => Sys2Proof.Machine.execRead a s

end Sys2Proof.Machine
end

