-- ==== Sys2Proof/Machine/Clock.lean ====
section
/-! DEFINITION. What one rising edge of `clk` does: decode and execute a command word, raise ILL on an
illegal one, reset, or idle (R45, R226, R229). -/

namespace Sys2Proof.Machine

/-- A command word accepted at an edge: it is decoded before it executes (R228), and an illegal one raises
ILL and does nothing else (R77, R226). -/
def runWord (w : Cmd) (s : State) : Host.Outcome State Fault Refusal :=
  match decode w with
  | .legal i => exec i s
  | .illegal _ => .next (raiseIll s)

/-- One rising edge: reset wins over a command, a valid command executes, and otherwise nothing changes
(R45, R229). -/
def clockEdge (e : Edge) (s : State) : Host.Outcome State Fault Refusal :=
  if e.rst then .next (resetEdge s)
  else if e.cmdValid then runWord e.cmd s
  else .next s

/-- The coming edges without the nearest one. -/
def dropEdge (s : State) : State := { s with edges := s.edges.tail }

/-- The sample of the ports at which the host issues command word `w` (R45). -/
def commandEdge (w : Cmd) : Edge := { rst := false, cmdValid := true, cmd := w }

/-- The host issues `w` at the nearest rising edge, before the edges already waiting (log 1). -/
def presentCmd (w : Cmd) (s : State) : State := { s with edges := commandEdge w :: s.edges }

end Sys2Proof.Machine
end

