-- ==== Sys2Proof/Machine/Step.lean ====
section
/-! DEFINITION. The step: one rising edge of `clk` (R45, R46). -/

namespace Sys2Proof.Machine

/-- One step takes the nearest waiting edge; with none waiting the host is idle and nothing changes
(R45, R46; log 1). -/
def step (s : State) : Host.Outcome State Fault Refusal :=
  match s.edges with
  | [] => .next s
  | e :: _ => clockEdge e (dropEdge s)

/-- The command word of an opcode-table row presented on the `cmd` port at the next edge, which is where
this block takes its next command (R64; log 1). -/
def State.withFetchWord (s : State) (nbits w : Nat) : State := presentCmd (tableCmd nbits w) s

end Sys2Proof.Machine
end

