-- ==== Sys2Proof/Machine/HostProtocol.lean ====
section
/-! DEFINITION. Sequences of commands: the pseudo-instructions (R81), the host protocol of a measurement
attempt (R236 to R239), and running a sequence. What the host does besides issuing commands (bus, delays,
text) is not part of the block (R5). -/

namespace Sys2Proof.Machine

/-- `FRAME b0, ..., b6`: START and seven PUSHes (R81). -/
def expandFrame (f : Frame) : List Instr := .start :: f.toList.map .push

/-- `FRAMEC b0, ..., b5`: FRAME with the CRC of its six bytes as the seventh (R81). -/
def expandFrameC (d : Vector Byte 6) : List Instr := expandFrame (d.push (crc8 d.toList))

/-- `READING`: READ STATUS, READ HUMC, READ TCC, READ TFC (R81, R204). -/
def expandReading : List Instr := [.read 0x0, .read 0x9, .read 0xA, .read 0xB]

/-- How one measurement attempt went on the sensor bus (R237 to R239). -/
inductive Attempt where
  /-- The Measure command could not be written (R237). -/
  | writeFailed
  /-- The read of the frame failed, after some bytes or none (R238). -/
  | readFailed
  /-- Seven bytes were read (R239). -/
  | frameRead (f : Frame)
deriving DecidableEq, Repr

/-- What the host issues to the block for an attempt (R237 to R239). -/
def attemptCommands : Attempt → List Instr
  | .writeFailed => []
  | .readFailed => [.abort]
  | .frameRead f => expandFrame f ++ [.read 0x0]

/-- The commands of a sequence, one after another (R61). -/
def runCommands : List Instr → State → Host.Outcome State Fault Refusal
  | [], s => .next s
  | i :: rest, s =>
    match exec i s with
    | .next t => runCommands rest t
    | .fault r => .fault r
    | .refused r => .refused r

end Sys2Proof.Machine
end

