-- ==== Sys2Proof/Machine/Asm.lean ====
section
/-! DEFINITION. The assembler (R79 to R81): a line of text to command words. Text is a list of characters.
What the spec leaves open of the syntax is log 6. -/

namespace Sys2Proof.Machine

/-- Space, tabulator and carriage return (log 6). -/
def isBlank (c : Char) : Bool := c = ' ' || c = '\t' || c = '\r'

/-- The text without white space at its two ends. -/
def trimBlank (cs : List Char) : List Char :=
  ((cs.dropWhile isBlank).reverse.dropWhile isBlank).reverse

/-- The pieces of a text between the characters `sep`; one empty piece for an empty text. -/
def splitAtChar (sep : Char) : List Char → List (List Char)
  | [] => [[]]
  | c :: rest =>
    match splitAtChar sep rest with
    | [] => [[]]
    | piece :: pieces => if c = sep then [] :: piece :: pieces else (c :: piece) :: pieces

/-- A digit of base 10 or 16, in lower case. -/
def digitVal (base : Nat) (c : Char) : Option Nat :=
  let v := if '0' ≤ c ∧ c ≤ '9' then some (c.toNat - '0'.toNat)
    else if 'a' ≤ c ∧ c ≤ 'f' then some (c.toNat - 'a'.toNat + 10) else none
  v.bind fun d => if d < base then some d else none

/-- A non-empty run of digits, most significant first. -/
def numeral (base : Nat) : List Char → Option Nat
  | [] => none
  | cs => cs.foldl (fun acc c => acc.bind fun n => (digitVal base c).map fun d => base * n + d) (some 0)

/-- A number of the syntax: hexadecimal after 0x, otherwise decimal (R79). -/
def number : List Char → Option Nat
  | '0' :: 'x' :: cs => numeral 16 cs
  | cs => numeral 10 cs

/-- `<byte>`: 0..255; larger is an assembly error (R79). -/
def asmByte (cs : List Char) : Option Byte :=
  (number cs).bind fun n => if n < 256 then some (BitVec.ofNat 8 n) else none

/-- The register names of READ with their addresses (R80), in lower case. -/
def regNames : List (List Char × RegAddr) :=
  [("status".toList, 0), ("crc".toList, 1), ("frame0".toList, 2), ("frame1".toList, 3),
   ("rawh".toList, 4), ("rawt".toList, 5), ("humq".toList, 6), ("tcq".toList, 7), ("tfq".toList, 8),
   ("humc".toList, 9), ("tcc".toList, 10), ("tfc".toList, 11), ("humd".toList, 12), ("tcd".toList, 13),
   ("tfd".toList, 14)]

/-- `<reg>`: a register name, or 0..14 by number; 15 is an assembly error (R79, R80). -/
def asmReg (cs : List Char) : Option RegAddr :=
  match regNames.lookup cs with
  | some a => some a
  | none => (number cs).bind fun n => if n ≤ 14 then some (BitVec.ofNat 4 n) else none

/-- `<hex16>`: 0x and a value of at most 16 bits (R79). -/
def asmHex16 : List Char → Option Cmd
  | '0' :: 'x' :: cs => (numeral 16 cs).bind fun n => if n < 65536 then some (BitVec.ofNat 16 n) else none
  | _ => none

/-- All the operands as bytes, none if one is not a byte. -/
def asmBytes : List (List Char) → Option (List Byte)
  | [] => some []
  | cs :: rest => (asmByte cs).bind fun b => (asmBytes rest).map (b :: ·)

/-- A list of exactly n bytes as a vector. -/
def exactly (n : Nat) (bs : List Byte) : Option (Vector Byte n) :=
  if h : bs.length = n then some ⟨bs.toArray, h⟩ else none

/-- A mnemonic or pseudo-instruction with its operands (R79, R81), all in lower case; none is an assembly
error. -/
def asmCommand (mnemonic : List Char) (operands : List (List Char)) : Option (List Cmd) :=
  match String.ofList mnemonic, operands with
  | "nop", [] => some [encode .nop]
  | "start", [] => some [encode .start]
  | "push", [b] => (asmByte b).map fun b => [encode (.push b)]
  | "abort", [] => some [encode .abort]
  | "read", [a] => (asmReg a).map fun a => [encode (.read a)]
  | ".word", [w] => (asmHex16 w).map fun w => [w]
  | "frame", bs => ((asmBytes bs).bind (exactly 7)).map fun f => (expandFrame f).map encode
  | "framec", bs => ((asmBytes bs).bind (exactly 6)).map fun d => (expandFrameC d).map encode
  | "reading", [] => some (expandReading.map encode)
  | _, _ => none

/-- One line: a `;` starts a comment, letters are read without regard to case, operands are separated by
commas; a line with no command assembles to nothing (R79). -/
def asmLine (line : List Char) : Option (List Cmd) :=
  let text := trimBlank ((line.takeWhile (· ≠ ';')).map Char.toLower)
  let mnemonic := text.takeWhile (!isBlank ·)
  let rest := trimBlank (text.dropWhile (!isBlank ·))
  if text = [] then some []
  else asmCommand mnemonic (if rest = [] then [] else (splitAtChar ',' rest).map trimBlank)

/-- A whole text, one command a line (R79); none if any line is an assembly error. -/
def asmText (text : List Char) : Option (List Cmd) :=
  ((splitAtChar '\n' text).map asmLine).foldr (fun l acc => l.bind fun ws => acc.map (ws ++ ·)) (some [])

end Sys2Proof.Machine
end

