-- ==== Sys2Proof/Safety.lean ====
section
/-! DEFINITION. What the claims are stated in terms of: the invariant of the block, the states a run
reaches, states that no command can tell apart, and the block seen one whole frame at a time. -/

namespace Sys2Proof.Machine

/-- The invariant: what the rules say holds in every reachable state (R24, R27 to R29, R31, R220, R221). -/
structure State.Inv (s : State) : Prop where
  /-- ACC is the CRC of the bytes received so far (R24). -/
  running : s.acc = crc8 (s.rx.toList.take s.cnt.val)
  /-- CRCC is the CRC of the recorded frame (R27). -/
  recorded : s.crcc = frameCrc s.frame
  /-- RES is one of the five codes (R28). -/
  resCode : s.res.toNat ≤ 4
  /-- NONE: no frame recorded and no reading since reset (R220, R221). -/
  noneYet : s.res = resNone → s.valid = false ∧ s.frame = State.reset.frame
  /-- OK: the recorded frame is good, and it is the reading (R31, R220, R222). -/
  okCommitted : s.res = resOk →
    s.valid = true ∧ busyFlag s.frame = false ∧ s.crcc = s.frame[6] ∧
      s.rawH = extractH s.frame ∧ s.rawT = extractT s.frame
  /-- BUSY: the recorded frame has its busy flag set (R220, R223). -/
  busyRecorded : s.res = resBusy → busyFlag s.frame = true
  /-- CRC_FAIL: the recorded frame is not busy and does not match (R220, R224). -/
  failRecorded : s.res = resCrcFail → busyFlag s.frame = false ∧ s.crcc ≠ s.frame[6]
  /-- Before the first commit the raw fields hold their reset value (R29). -/
  noReading : s.valid = false → s.rawH = 0 ∧ s.rawT = 0

/-- The states a run reaches: it begins in the reset state with any coming inputs, and after a reset edge
it goes on (R20, R252). -/
inductive Reachable : State → Prop where
  | reset (es : List Edge) : Reachable { State.reset with edges := es }
  | step {s t : State} : Reachable s → Machine.step s = .next t → Reachable t

/-- Two states that differ at most in receive-buffer bytes not yet written in the frame being assembled:
RX[i] for i ≥ CNT (R25). -/
def SameButDeadRx (s t : State) : Prop :=
  t = { s with rx := t.rx } ∧ ∀ (i : Nat) (h : i < 6), i < s.cnt.val → s.rx[i] = t.rx[i]

/-- The frame is good: busy flag clear and CRC match (R177). -/
def goodFrame (f : Frame) : Bool := !busyFlag f && crcMatch f

/-- The outcome of a frame, from its bytes alone (R177). -/
def frameOutcome (f : Frame) : BitVec 3 :=
  if busyFlag f then resBusy else if crcMatch f then resOk else resCrcFail

/-- The remainder of a polynomial of degree at most 15 divided by x^8 + x^5 + x^4 + 1, by long division
from the highest term down (R9, R101): what a CRC with polynomial 0x31 means. -/
def polyRemainder (v : BitVec 16) : Byte :=
  ((List.range 8).foldl
    (fun r k => if r.getLsbD (15 - k) then r ^^^ (0x131#16 <<< (7 - k)) else r) v).setWidth 8

/-- The decoder takes the word as a command. -/
def isLegal (w : Cmd) : Bool :=
  match decode w with
  | .legal _ => true
  | .illegal _ => false

/-- One whole frame as one event, with no receive buffer filling up byte by byte: the frame is recorded,
its outcome decided, and the reading replaced if and only if it is good (R26, R176 to R179). -/
def acceptFrame (s : State) (f : Frame) : State :=
  { s with
    cnt := 0
    acc := crcInit
    rx := f.pop
    frame := f
    crcc := frameCrc f
    res := frameOutcome f
    valid := s.valid || goodFrame f
    rawH := if goodFrame f then extractH f else s.rawH
    rawT := if goodFrame f then extractT f else s.rawT }

end Sys2Proof.Machine
end

