-- ==== Sys2Proof/Certificates/Slice0/Obligations.lean ====
section
/-! DEFINITION. The statements about DT2-CFS, for the provers. They use the spec's own numbers (outcome
codes, addresses, bit positions) and not the model's names for them. -/

open Sys2Proof Sys2Proof.Machine

/-! ### Encoding -/

/-- R82: the encoding examples, as words of commands, as decoded words, and as assembled text. -/
def Obligations.EncodingExamples : Prop :=
  (encode .nop = 0x0000 ∧ encode .start = 0x1000 ∧ encode (.push 0x1E) = 0x201E ∧
    encode (.push 255) = 0x20FF ∧ encode .abort = 0x3000 ∧ encode (.read 0x0) = 0x4000 ∧
    encode (.read 0xE) = 0x4E00) ∧
  (decode 0x0000 = .legal .nop ∧ decode 0x1000 = .legal .start ∧ decode 0x201E = .legal (.push 0x1E) ∧
    decode 0x20FF = .legal (.push 255) ∧ decode 0x3000 = .legal .abort ∧
    decode 0x4000 = .legal (.read 0x0) ∧ decode 0x4E00 = .legal (.read 0xE) ∧
    (∃ why, decode 0x4F00 = .illegal why) ∧ ∃ why, decode 0x5000 = .illegal why) ∧
  (asmLine "NOP".toList = some [0x0000] ∧ asmLine "START".toList = some [0x1000] ∧
    asmLine "PUSH 0x1E".toList = some [0x201E] ∧ asmLine "PUSH 255".toList = some [0x20FF] ∧
    asmLine "ABORT".toList = some [0x3000] ∧ asmLine "READ STATUS".toList = some [0x4000] ∧
    asmLine "READ TFD".toList = some [0x4E00] ∧ asmLine ".word 0x4F00".toList = some [0x4F00] ∧
    asmLine ".word 0x5000".toList = some [0x5000])

/-- Every well-formed command is read back from its own word, with every operand value (R70, R73, R78). -/
def Obligations.DecodeOfEncode : Prop :=
  ∀ i : Instr, i.wf = true → decode (encode i) = .legal i

/-- Every legal word is the word of the one command it decodes to, so no two words share a command and no
two commands share a word (R78). -/
def Obligations.LegalWordIsItsCommandsWord : Prop :=
  ∀ (w : Cmd) (i : Instr), decode w = .legal i → i.wf = true ∧ encode i = w

/-- R73: the legal command words are exactly those of the opcode map, each with its command, and there are
274 distinct ones of the 65536, so 65262 are illegal. -/
def Obligations.LegalWordsAreTheOpcodeMap : Prop :=
  (∀ w : Cmd, isLegal w = true ↔
    w = 0x0000 ∨ w = 0x1000 ∨ (0x2000 ≤ w.toNat ∧ w.toNat ≤ 0x20FF) ∨ w = 0x3000 ∨
      ∃ a, a ≤ 0xE ∧ w.toNat = 0x4000 + 0x100 * a) ∧
  (decode 0x0000 = .legal .nop ∧ decode 0x1000 = .legal .start ∧
    (∀ b : Byte, decode (0x20#8 ++ b) = .legal (.push b)) ∧ decode 0x3000 = .legal .abort ∧
    ∀ a : RegAddr, a ≠ 0xF → decode (0x4#4 ++ a ++ 0x00#8) = .legal (.read a)) ∧
  ∃ words : List Cmd, words.Nodup ∧ words.length = 274 ∧ 2 ^ 16 - words.length = 65262 ∧
    ∀ w : Cmd, isLegal w = true ↔ w ∈ words

/-- R74, R75, R76, R77: which words are illegal, and that each of them, run in any state, sets ILL and
changes nothing else. -/
def Obligations.IllegalWordsSetIllAndNothingElse : Prop :=
  ∀ w : Cmd,
    (isLegal w = false ↔
      5 ≤ (w.extractLsb' 12 4).toNat ∨
      ((w.extractLsb' 12 4).toNat ≤ 3 ∧ w.extractLsb' 8 4 ≠ 0) ∨
      ((w.extractLsb' 12 4).toNat ≠ 2 ∧ w.extractLsb' 0 8 ≠ 0) ∨
      ((w.extractLsb' 12 4).toNat = 4 ∧ w.extractLsb' 8 4 = 0xF)) ∧
    ∀ s : State, isLegal w = false → runWord w s = .next { s with ill := true }

/-- R80, R81: the register names with their addresses, the words of the pseudo-instructions, and that the
frame of FRAMEC passes the CRC check. -/
def Obligations.RegisterNamesAndPseudoInstructions : Prop :=
  (["status", "crc", "frame0", "frame1", "rawh", "rawt", "humq", "tcq", "tfq", "humc", "tcc", "tfc",
      "humd", "tcd", "tfd"].map (fun n => asmReg n.toList) =
    [some 0, some 1, some 2, some 3, some 4, some 5, some 6, some 7, some 8, some 9, some 10, some 11,
      some 12, some 13, some 14]) ∧
  (∀ b0 b1 b2 b3 b4 b5 b6 : Byte, (expandFrame #v[b0, b1, b2, b3, b4, b5, b6]).map encode =
    [0x1000, 0x20#8 ++ b0, 0x20#8 ++ b1, 0x20#8 ++ b2, 0x20#8 ++ b3, 0x20#8 ++ b4, 0x20#8 ++ b5,
      0x20#8 ++ b6]) ∧
  (∀ b0 b1 b2 b3 b4 b5 : Byte, expandFrameC #v[b0, b1, b2, b3, b4, b5] =
    expandFrame #v[b0, b1, b2, b3, b4, b5, crc8 [b0, b1, b2, b3, b4, b5]]) ∧
  (∀ d : Vector Byte 6, crcMatch (d.push (crc8 d.toList)) = true) ∧
  expandReading.map encode = [0x4000, 0x4900, 0x4A00, 0x4B00]

/-- R79: the operands of the assembler. A byte is 0..255 in decimal or hexadecimal and a larger number is an
error, a register is a name or a number 0..14, case does not matter, `;` starts a comment, and `.word` emits
any word. The model's choice (log 6, DESIGN CHOICE), which R79 does not say: white space around a line, a
mnemonic and an operand; a hexadecimal number of any count of digits; a line with no command, such as the one
with only a comment, assembles to no word; a text is the words of its lines in order. -/
def Obligations.AssemblerOperands : Prop :=
  (∀ n < 1000, asmByte (Nat.toDigits 10 n) = if n < 256 then some (BitVec.ofNat 8 n) else none) ∧
  (∀ n < 1000, asmByte ('0' :: 'x' :: Nat.toDigits 16 n) =
    if n < 256 then some (BitVec.ofNat 8 n) else none) ∧
  (∀ n < 100, asmReg (Nat.toDigits 10 n) = if n ≤ 14 then some (BitVec.ofNat 4 n) else none) ∧
  asmLine "read 0xF".toList = none ∧ asmLine "PUSH 256".toList = none ∧ asmLine "PUSH".toList = none ∧
  asmLine "ReAd tCq ; a comment".toList = some [0x4700] ∧ asmLine "; only a comment".toList = some [] ∧
  asmLine ".word 0x5000".toList = some [0x5000] ∧
  asmText "FRAMEC 0x1C, 0x73, 0x33, 0x35, 0xE1, 0x48\nREADING".toList =
    some [0x1000, 0x201C, 0x2073, 0x2033, 0x2035, 0x20E1, 0x2048, 0x2039, 0x4000, 0x4900, 0x4A00, 0x4B00]

/-! ### The step -/

/-- A step on a waiting edge that carries a legal command is that command's meaning, in the state with the
edge taken off (R45); that the coming edges stand in a list of which a step takes the nearest is the model's
choice (log 1, DESIGN CHOICE). The second clause says nothing of the spec's own: that withFetchWord puts an
opcode-table word before the edges already waiting, so that the very next step runs it, is the model's choice
(log 1, DESIGN CHOICE), and that bit k of a table row is bit k of cmd is read from R44, R64 and R71 (log 8,
DEDUCED). -/
def Obligations.StepRunsTheDecodedCommand : Prop :=
  (∀ (s : State) (e : Edge) (rest : List Edge) (i : Instr), s.edges = e :: rest → e.rst = false →
    e.cmdValid = true → decode e.cmd = .legal i → step s = exec i { s with edges := rest }) ∧
  ∀ (s : State) (nbits w : Nat) (i : Instr), decodeTableWord nbits w = some i →
    step (s.withFetchWord nbits w) = exec i s

/-- What a step does when no legal command runs: reset beats a command (R229), an illegal word sets ILL
(R226), and an edge with cmd_valid = 0 changes nothing (R45). The model's choice (log 1, DESIGN CHOICE): a
step takes the nearest edge off the list and leaves the rest, and with no waiting edge the host is idle. -/
def Obligations.StepWithoutALegalCommand : Prop :=
  (∀ s : State, s.edges = [] → step s = .next s) ∧
  ∀ (s : State) (e : Edge) (rest : List Edge), s.edges = e :: rest →
    (e.rst = true → step s = .next (resetEdge { s with edges := rest })) ∧
    (e.rst = false → e.cmdValid = false → step s = .next { s with edges := rest }) ∧
    (e.rst = false → e.cmdValid = true → isLegal e.cmd = false →
      step s = .next { s with edges := rest, ill := true })

/-- Every command completes in every state, and so does every step: no trap, no stop, no mode that forbids
a command (R45, R227, R234). -/
def Obligations.EveryCommandAndEveryStepCompletes : Prop :=
  (∀ (i : Instr) (s : State), ∃ t, exec i s = .next t) ∧ ∀ s : State, ∃ t, step s = .next t

/-! ### The commands -/

/-- R171: NOP changes nothing, in every state; its word is 0x0000 and no other word with OP = 0x0 is
legal. -/
def Obligations.NopChangesNothing : Prop :=
  (∀ s : State, exec .nop s = .next s) ∧ decode 0x0000 = .legal .nop ∧
  ∀ w : Cmd, w.extractLsb' 12 4 = 0x0 → w ≠ 0x0000 → isLegal w = false

/-- R172: START sets CNT to 0 and ACC to 0xFF and leaves every other element as it was; with CNT = 0 it
changes nothing in a state where ACC is the running CRC. -/
def Obligations.StartDropsThePartialFrame : Prop :=
  decode 0x1000 = .legal .start ∧
  (∀ s : State, exec .start s = .next { s with cnt := 0, acc := 0xFF }) ∧
  ∀ s : State, s.Inv → s.cnt = 0 → exec .start s = .next s

/-- R175: PUSH with CNT = i < 6 stores the byte as RX[i], folds it into ACC and counts it, and leaves every
other element as it was. -/
def Obligations.PushAccumulatesAByte : Prop :=
  ∀ (b : Byte) (s : State) (h : s.cnt.val < 6),
    exec (.push b) s = .next { s with
      rx := s.rx.set s.cnt.val b h
      acc := crc8Step s.acc b
      cnt := ⟨s.cnt.val + 1, Nat.succ_lt_succ h⟩ }

/-- R176: PUSH with CNT = 6 records the frame and the running CRC, decides the outcome (busy before CRC),
commits on OK only, and re-arms; every element not named keeps its value. The CRC recorded is that of the
frame's bytes 0 to 5 in a state where ACC is the running CRC. -/
def Obligations.PushCompletesAFrame : Prop :=
  ∀ (b : Byte) (s : State), s.cnt.val = 6 →
    (s.Inv → s.acc = frameCrc (s.rx.push b)) ∧
    (s.rx[0].getLsbD 7 = true → exec (.push b) s = .next { s with
      frame := s.rx.push b, crcc := s.acc, res := 2, cnt := 0, acc := 0xFF }) ∧
    (s.rx[0].getLsbD 7 = false → s.acc ≠ b → exec (.push b) s = .next { s with
      frame := s.rx.push b, crcc := s.acc, res := 3, cnt := 0, acc := 0xFF }) ∧
    (s.rx[0].getLsbD 7 = false → s.acc = b → exec (.push b) s = .next { s with
      frame := s.rx.push b, crcc := s.acc, res := 1, valid := true, rawH := extractH (s.rx.push b),
      rawT := extractT (s.rx.push b), cnt := 0, acc := 0xFF })

/-- R177: the outcome of a completed frame F in terms of its own bytes: BUSY if F[0][7] = 1 whatever
the CRC, else CRC_FAIL if crc8(F[0..5]) ≠ F[6], else OK; and crc8(F[0..5]) is recorded in CRCC whatever the
outcome. -/
def Obligations.OutcomeIsBusyThenCrc : Prop :=
  ∀ (b : Byte) (s : State), s.Inv → s.cnt.val = 6 →
    ∃ t, exec (.push b) s = .next t ∧ t.frame = s.rx.push b ∧
      t.crcc = crc8 [t.frame[0], t.frame[1], t.frame[2], t.frame[3], t.frame[4], t.frame[5]] ∧
      t.res = (if t.frame[0].getLsbD 7 then 2
        else if crc8 [t.frame[0], t.frame[1], t.frame[2], t.frame[3], t.frame[4], t.frame[5]] ≠ t.frame[6]
          then 3 else 1)

/-- R178, R179: a completing PUSH changes the reading only with outcome OK, and then RAW_H, RAW_T and VALID
together; with any other outcome they and every register that shows them keep their values, so a busy frame
never updates the reading. -/
def Obligations.CommitAllTogetherOrNone : Prop :=
  ∀ (b : Byte) (s : State), s.cnt.val = 6 →
    ∃ t, exec (.push b) s = .next t ∧
      (t.res = 1 → t.rawH = extractH t.frame ∧ t.rawT = extractT t.frame ∧ t.valid = true) ∧
      (t.res ≠ 1 → t.rawH = s.rawH ∧ t.rawT = s.rawT ∧ t.valid = s.valid ∧
        ∀ a : RegAddr, 4 ≤ a.toNat → regValue t a = regValue s a) ∧
      (s.rx[0].getLsbD 7 = true → t.res ≠ 1)

/-- R180, R253: ABORT sets CNT to 0, ACC to 0xFF and RES to READ_FAIL (4) and leaves every other element as
it was, in every state, with CNT = 0 as well; a second ABORT leaves the same state. -/
def Obligations.AbortRecordsReadFail : Prop :=
  decode 0x3000 = .legal .abort ∧
  (∀ s : State, exec .abort s = .next { s with cnt := 0, acc := 0xFF, res := 4 }) ∧
  ∀ s t : State, exec .abort s = .next t → exec .abort t = .next t

/-- R200, R201: READ of an address 0x0 to 0xE writes that register's value to RDATA and nothing else; READ
of 0xF, or with DATA ≠ 0, sets ILL and nothing else. A READ of STATUS shows CNT and one of CRC shows ACC; while
VALID = 0 the scaled registers show the scaling of zero; RAW_T = 524288 reads as 50 °C. -/
def Obligations.ReadReturnsTheRegister : Prop :=
  (∀ (a : RegAddr) (s : State), a ≠ 0xF →
    ∃ v, regValue s a = some v ∧ exec (.read a) s = .next { s with rdata := v }) ∧
  (∀ s : State, exec (.read 0xF) s = .next { s with ill := true }) ∧
  (∀ (w : Cmd) (s : State), w.extractLsb' 12 4 = 0x4 → (w.extractLsb' 8 4 = 0xF ∨ w.extractLsb' 0 8 ≠ 0) →
    runWord w s = .next { s with ill := true }) ∧
  (∀ s : State, ∃ v, exec (.read 0x0) s = .next { s with rdata := v } ∧
    (v.extractLsb' 4 3).toNat = s.cnt.val) ∧
  (∀ s : State, ∃ v, exec (.read 0x1) s = .next { s with rdata := v } ∧ v.extractLsb' 16 8 = s.acc) ∧
  (∀ s : State, s.Inv → s.valid = false →
    exec (.read 0x7) s = .next { s with rdata := 0xFCE00000 } ∧
    exec (.read 0xA) s = .next { s with rdata := 0x80001388 } ∧
    exec (.read 0xB) s = .next { s with rdata := 0x800016A8 }) ∧
  ∀ s : State, s.rawT = 0x80000 → exec (.read 0x7) s = .next { s with rdata := 0x03200000 }

/-- R202: any number of NOPs and READs changes no register of the map and nothing but RDATA, so a READ
repeated with only those between gives the same value. -/
def Obligations.ReadingDisturbsNothing : Prop :=
  ∀ (is : List Instr) (s : State), (∀ i ∈ is, i = .nop ∨ ∃ a : RegAddr, a ≠ 0xF ∧ i = .read a) →
    ∃ t, runCommands is s = .next t ∧ t = { s with rdata := t.rdata } ∧
      ∀ a : RegAddr, regValue t a = regValue s a

/-! ### Frames as wholes -/

/-- START and the seven bytes of any frame, from any state, have exactly the effect of the frame accepted
as one event: recorded, decided by its own bytes, committed if good, everything else unchanged. -/
def Obligations.StartAndSevenPushesAcceptTheFrame : Prop :=
  ∀ (f : Frame) (s : State), runCommands (expandFrame f) s = .next (acceptFrame s f)

/-- R181: from CNT = 0 and ACC = 0xFF, a stream of 7k PUSHes with no START is read as k frames, each
completed and decided on its own. -/
def Obligations.StreamOfPushesIsAStreamOfFrames : Prop :=
  ∀ (fs : List Frame) (s : State), s.cnt = 0 → s.acc = 0xFF →
    runCommands (fs.flatMap fun f => f.toList.map .push) s = .next (fs.foldl acceptFrame s)

/-- R81: the frame FRAMEC builds passes the CRC check. From any state, if its status byte is not busy, it
ends with outcome OK and its fields committed; if it is busy, with outcome BUSY. -/
def Obligations.FrameCPassesTheCrcCheck : Prop :=
  ∀ (d : Vector Byte 6) (s : State), ∃ t, runCommands (expandFrameC d) s = .next t ∧ t.crcc = t.frame[6] ∧
    (d[0].getLsbD 7 = true → t.res = 2) ∧
    (d[0].getLsbD 7 = false → t.res = 1 ∧ t.valid = true ∧ t.rawH = extractH t.frame ∧
      t.rawT = extractT t.frame)

/-- R183: each way a measurement attempt ends maps to exactly one outcome. A failed write sends nothing and
leaves the state; a failed read gives READ_FAIL; a frame read gives BUSY, CRC_FAIL or OK with a commit, and
the READ STATUS that follows shows that outcome in RDATA[2:0]. -/
def Obligations.AttemptsMapToOutcomes : Prop :=
  ∀ s : State,
    runCommands (attemptCommands .writeFailed) s = .next s ∧
    (∃ t, runCommands (attemptCommands .readFailed) s = .next t ∧ t.res = 4 ∧ t.rawH = s.rawH ∧
      t.rawT = s.rawT ∧ t.valid = s.valid) ∧
    ∀ f : Frame, ∃ t, runCommands (attemptCommands (.frameRead f)) s = .next t ∧
      t.rdata.extractLsb' 0 3 = t.res ∧
      (f[0].getLsbD 7 = true → t.res = 2 ∧ t.rawH = s.rawH ∧ t.rawT = s.rawT ∧ t.valid = s.valid) ∧
      (f[0].getLsbD 7 = false → frameCrc f ≠ f[6] →
        t.res = 3 ∧ t.rawH = s.rawH ∧ t.rawT = s.rawT ∧ t.valid = s.valid) ∧
      (f[0].getLsbD 7 = false → frameCrc f = f[6] →
        t.res = 1 ∧ t.rawH = extractH f ∧ t.rawT = extractT f ∧ t.valid = true)

/-! ### Whole-machine rules -/

/-- R22, column "written by", and R41: which commands may change which element. No command changes ILL but
READ of the address that names no register. The last two clauses are about the model's own fields: no command
touches the coming inputs (log 1, DESIGN CHOICE) or the counter of free values (log 3, DESIGN CHOICE). -/
def Obligations.OnlyTheNamedCommandsWriteAnElement : Prop :=
  ∀ (i : Instr) (s : State), ∃ t, exec i s = .next t ∧
    (t.cnt ≠ s.cnt ∨ t.acc ≠ s.acc → i = .start ∨ i = .abort ∨ ∃ b, i = .push b) ∧
    (t.rx ≠ s.rx → ∃ b, i = .push b ∧ s.cnt.val < 6) ∧
    (t.frame ≠ s.frame ∨ t.crcc ≠ s.crcc → ∃ b, i = .push b ∧ s.cnt.val = 6) ∧
    (t.res ≠ s.res → i = .abort ∨ ∃ b, i = .push b ∧ s.cnt.val = 6) ∧
    (t.valid ≠ s.valid ∨ t.rawH ≠ s.rawH ∨ t.rawT ≠ s.rawT →
      (∃ b, i = .push b) ∧ s.cnt.val = 6 ∧ t.res = 1 ∧ t.valid = true) ∧
    (t.ill ≠ s.ill → i = .read 0xF) ∧
    (t.rdata ≠ s.rdata → ∃ a : RegAddr, a ≠ 0xF ∧ i = .read a) ∧
    t.edges = s.edges ∧ t.freeIdx = s.freeIdx

/-- R26: FRAME is written as a whole by a completing PUSH, whatever its outcome, and by no other command. -/
def Obligations.FrameIsReplacedWholeByTheSeventhPush : Prop :=
  ∀ (i : Instr) (s : State), ∃ t, exec i s = .next t ∧
    ((∃ b, i = .push b ∧ s.cnt.val = 6 ∧ t.frame = s.rx.push b) ∨
      ((∀ b, i = .push b → s.cnt.val < 6) ∧ t.frame = s.frame))

/-- R30: at any edge, ILL afterwards is 1 exactly if the edge is no reset and ILL was 1 or the edge carries
an illegal command; the `ill` output shows it. -/
def Obligations.IllIsStickyUntilReset : Prop :=
  ∀ (e : Edge) (s : State), ∃ t, clockEdge e s = .next t ∧ illPort t = t.ill ∧
    (t.ill = true ↔ e.rst = false ∧ (s.ill = true ∨ (e.cmdValid = true ∧ isLegal e.cmd = false)))

/-- R29: a reset edge clears VALID and no other edge does; one sets it only by the PUSH that completes a frame
with outcome OK, and every such PUSH leaves it 1 (the outcome is OK when byte 0 is not busy and ACC is the
seventh byte, so commits do happen). In every reachable state with VALID = 0 the raw fields are 0, and the
registers of R37 to R40 show the scaling of a zero raw field. -/
def Obligations.ValidFromFirstCommitUntilReset : Prop :=
  (∀ (e : Edge) (s : State), ∃ t, clockEdge e s = .next t ∧
    (e.rst = true → t.valid = false) ∧
    (e.rst = false → s.valid = true → t.valid = true) ∧
    (e.rst = false → s.valid = false → t.valid = true → s.cnt.val = 6 ∧ t.res = 1 ∧
      e.cmdValid = true ∧ ∃ b, decode e.cmd = .legal (.push b)) ∧
    (e.rst = false → e.cmdValid = true → ∀ b, decode e.cmd = .legal (.push b) → s.cnt.val = 6 →
      (s.rx[0].getLsbD 7 = false → s.acc = b → t.res = 1) ∧ (t.res = 1 → t.valid = true))) ∧
  ∀ s : State, Reachable s → s.valid = false → s.rawH = 0 ∧ s.rawT = 0 ∧
    (List.range' 4 11).map (fun a => regValue s (BitVec.ofNat 4 a)) =
      [some 0x00000000, some 0x00000000, some 0x00000000, some 0xFCE00000, some 0xFC600000,
       some 0x00000000, some 0x80001388, some 0x800016A8, some 0x00000000, some 0x80005000, some 0x80005800]

/-- R221: NONE is never written: if RES is 0 after an edge that is no reset, it was 0 before; and a
completing PUSH and an ABORT leave RES nonzero. -/
def Obligations.NoneOnlyUntilTheFirstOutcome : Prop :=
  (∀ (e : Edge) (s : State), e.rst = false → ∃ t, clockEdge e s = .next t ∧ (t.res = 0 → s.res = 0)) ∧
  (∀ s : State, ∃ t, exec .abort s = .next t ∧ t.res ≠ 0) ∧
  ∀ (b : Byte) (s : State), s.cnt.val = 6 → ∃ t, exec (.push b) s = .next t ∧ t.res ≠ 0

/-- R25: RX[i] for i ≥ CNT is unobservable. Two states that differ only there step to states that differ
only there, with every register and both outputs equal. So no claim rests on what RX holds at reset. -/
def Obligations.UnwrittenReceiveBytesAreUnobservable : Prop :=
  ∀ s t : State, SameButDeadRx s t →
    ∃ s' t', step s = .next s' ∧ step t = .next t' ∧ SameButDeadRx s' t' ∧
      rdataPort s' = rdataPort t' ∧ illPort s' = illPort t' ∧ ∀ a : RegAddr, regValue s' a = regValue t' a

/-! ### Invariants -/

/-- The reset state, with any coming inputs, has the invariant. -/
def Obligations.ResetHasTheInvariant : Prop :=
  ∀ es : List Edge, State.Inv { State.reset with edges := es }

/-- The invariant (running CRC, recorded CRC, outcome codes and what each of them says of the recorded frame
and the reading) is kept by every step from every state that has it. -/
def Obligations.EveryStepKeepsTheInvariant : Prop :=
  ∀ s t : State, s.Inv → step s = .next t → t.Inv

/-- R24: in every reachable state, ACC = crc8(RX[0], ..., RX[CNT-1]), and ACC = 0xFF when CNT = 0. -/
def Obligations.RunningCrcInReachableStates : Prop :=
  ∀ s : State, Reachable s →
    s.acc = crc8 (s.rx.toList.take s.cnt.val) ∧ (s.cnt = 0 → s.acc = 0xFF)

/-- R27: in every reachable state, CRCC = crc8(FRAME[0], ..., FRAME[5]). -/
def Obligations.RecordedCrcInReachableStates : Prop :=
  ∀ s : State, Reachable s →
    s.crcc = crc8 [s.frame[0], s.frame[1], s.frame[2], s.frame[3], s.frame[4], s.frame[5]]

/-- R28: in every reachable state RES is 0 to 4; and the code says of the recorded frame and the reading
what its cause in R220 says. -/
def Obligations.OutcomeCodeInReachableStates : Prop :=
  ∀ s : State, Reachable s → s.res.toNat ≤ 4 ∧
    (s.res = 0 → s.valid = false) ∧
    (s.res = 1 → s.frame[0].getLsbD 7 = false ∧ frameCrc s.frame = s.frame[6] ∧ s.valid = true ∧
      s.rawH = extractH s.frame ∧ s.rawT = extractT s.frame) ∧
    (s.res = 2 → s.frame[0].getLsbD 7 = true) ∧
    (s.res = 3 → s.frame[0].getLsbD 7 = false ∧ frameCrc s.frame ≠ s.frame[6])

/-! ### Reset -/

/-- R229, R250: an edge with rst = 1 gives the reset value of every element, whatever the state before it
and whatever command is presented (RX may hold anything), and every register then reads as R250 lists. The
clause t.edges = rest, that a reset leaves the coming edges in place, is the model's choice and no rule of
the spec (log 1, DESIGN CHOICE). -/
def Obligations.ResetEdgeGivesTheResetValues : Prop :=
  ∀ (s : State) (e : Edge) (rest : List Edge), s.edges = e :: rest → e.rst = true →
    ∃ t, step s = .next t ∧ t.cnt = 0 ∧ t.acc = 0xFF ∧ t.frame = #v[0, 0, 0, 0, 0, 0, 0] ∧
      t.crcc = 0x6A ∧ t.res = 0 ∧ t.valid = false ∧ t.ill = false ∧ t.rawH = 0 ∧ t.rawT = 0 ∧
      t.rdata = 0x00000000 ∧ t.edges = rest ∧
      (List.range 15).map (fun a => regValue t (BitVec.ofNat 4 a)) =
        [some 0x00000000, some 0x00FF006A, some 0x00000000, some 0x00000000, some 0x00000000,
         some 0x00000000, some 0x00000000, some 0xFCE00000, some 0xFC600000, some 0x00000000,
         some 0x80001388, some 0x800016A8, some 0x00000000, some 0x80005000, some 0x80005800]

/-! ### The register map -/

/-- R33: a register stands at each of the addresses 0x0 to 0xE and none at 0xF, in every state. -/
def Obligations.RegisterMapIsFifteenRegisters : Prop :=
  ∀ (s : State) (a : RegAddr), (∃ v, regValue s a = some v) ↔ a.toNat ≤ 0xE

/-- R34: the fields of STATUS, in every state. -/
def Obligations.StatusRegisterFields : Prop :=
  ∀ s : State, ∃ v, regValue s 0x0 = some v ∧ v.extractLsb' 0 3 = s.res ∧ v.getLsbD 3 = s.valid ∧
    (v.extractLsb' 4 3).toNat = s.cnt.val ∧ v.getLsbD 7 = s.ill ∧ v.getLsbD 8 = s.frame[0].getLsbD 7 ∧
    v.getLsbD 9 = s.frame[0].getLsbD 3 ∧ v.extractLsb' 10 22 = 0

/-- R35, R36: the fields of CRC, FRAME0 and FRAME1, in every state; under the invariant CALC = RECV exactly
when the recorded frame's CRC matches. -/
def Obligations.CrcAndFrameRegisterFields : Prop :=
  (∀ s : State, ∃ v, regValue s 0x1 = some v ∧ v.extractLsb' 0 8 = s.crcc ∧
    v.extractLsb' 8 8 = s.frame[6] ∧ v.extractLsb' 16 8 = s.acc ∧ v.extractLsb' 24 8 = 0 ∧
    (s.Inv → (v.extractLsb' 0 8 = v.extractLsb' 8 8 ↔ crcMatch s.frame = true))) ∧
  (∀ s : State, ∃ v, regValue s 0x2 = some v ∧ v.extractLsb' 0 8 = s.frame[0] ∧
    v.extractLsb' 8 8 = s.frame[1] ∧ v.extractLsb' 16 8 = s.frame[2] ∧ v.extractLsb' 24 8 = s.frame[3]) ∧
  ∀ s : State, ∃ v, regValue s 0x3 = some v ∧ v.extractLsb' 0 8 = s.frame[4] ∧
    v.extractLsb' 8 8 = s.frame[5] ∧ v.extractLsb' 16 8 = s.frame[6] ∧ v.extractLsb' 24 8 = 0

/-- R37, R38, R144: RAWH and RAWT are the raw fields, and HUMQ, TCQ and TFQ read as numbers (TCQ and TFQ
signed) are exactly hum_q, tc_q and tf_q, with bits 31:29 all equal to the sign. -/
def Obligations.RawAndFixedPointRegisters : Prop :=
  ∀ s : State,
    (∃ v, regValue s 0x4 = some v ∧ v.toNat = s.rawH.toNat) ∧
    (∃ v, regValue s 0x5 = some v ∧ v.toNat = s.rawT.toNat) ∧
    (∃ v, regValue s 0x6 = some v ∧ (v.toNat : Int) = humQ s.rawH ∧ v.toNat < 2 ^ 27) ∧
    (∃ v, regValue s 0x7 = some v ∧ v.toInt = tcQ s.rawT ∧ -2 ^ 26 ≤ v.toInt ∧ v.toInt < 2 ^ 29 ∧
      v.getLsbD 30 = v.getLsbD 31 ∧ v.getLsbD 29 = v.getLsbD 31) ∧
    ∃ v, regValue s 0x8 = some v ∧ v.toInt = tfQ s.rawT ∧ -2 ^ 26 ≤ v.toInt ∧ v.toInt < 2 ^ 29 ∧
      v.getLsbD 30 = v.getLsbD 31 ∧ v.getLsbD 29 = v.getLsbD 31

/-- R39: the fields of HUMC, TCC and TFC, in every state: the whole magnitude fits MAG and is at most
30200. -/
def Obligations.CentiRegisterFields : Prop :=
  ∀ s : State, ∀ p ∈ [(0x9, humQ s.rawH), (0xA, tcQ s.rawT), (0xB, tfQ s.rawT)],
    ∃ v, regValue s p.1 = some v ∧ (v.extractLsb' 0 16).toNat = (centi p.2).mag ∧
      (centi p.2).mag ≤ 30200 ∧ v.extractLsb' 16 15 = 0 ∧ v.getLsbD 31 = decide (p.2 < 0)

/-- R40: the fields of HUMD, TCD and TFD, in every state. -/
def Obligations.DigitRegisterFields : Prop :=
  ∀ s : State, ∀ p ∈ [(0xC, humQ s.rawH), (0xD, tcQ s.rawT), (0xE, tfQ s.rawT)],
    ∃ v, regValue s p.1 = some v ∧
      (v.extractLsb' 0 4).toNat = (centi p.2).mag % 10 ∧
      (v.extractLsb' 4 4).toNat = (centi p.2).mag / 10 % 10 ∧
      (v.extractLsb' 8 4).toNat = (centi p.2).mag / 100 % 10 ∧
      (v.extractLsb' 12 4).toNat = (centi p.2).mag / 1000 % 10 ∧
      (v.getLsbD 16 = true ↔ 10000 ≤ (centi p.2).mag) ∧ v.extractLsb' 17 14 = 0 ∧
      v.getLsbD 31 = decide (p.2 < 0)

/-- R43: in every state, 5 * tf_q = 9 * tc_q + 160 * 2^20, between the two functions and between the two
registers read as signed numbers. -/
def Obligations.FahrenheitIdentity : Prop :=
  ∀ s : State, 5 * tfQ s.rawT = 9 * tcQ s.rawT + 160 * 2 ^ 20 ∧
    ∃ c f : Word, regValue s 0x7 = some c ∧ regValue s 0x8 = some f ∧
      5 * f.toInt = 9 * c.toInt + 160 * 2 ^ 20

/-! ### The scaler -/

/-- R141, R142, R143: the fixed-point values, their ranges, and their corner values. -/
def Obligations.FixedPointFormulas : Prop :=
  (∀ h : Raw, humQ h = 100 * (h.toNat : Int) ∧ 0 ≤ humQ h ∧ humQ h ≤ 104857500) ∧
  (∀ t : Raw, tcQ t = 200 * (t.toNat : Int) - 52428800 ∧ -52428800 ≤ tcQ t ∧ tcQ t ≤ 157286200) ∧
  (∀ t : Raw, tfQ t = 360 * (t.toNat : Int) - 60817408 ∧ -60817408 ≤ tfQ t ∧ tfQ t ≤ 316669592) ∧
  (humQ 0 = 0 ∧ humQ 524288 = 52428800 ∧ humQ 1048575 = 104857500) ∧
  (tcQ 0 = -52428800 ∧ tcQ 262144 = 0 ∧ tcQ 524288 = 52428800 ∧ tcQ 1048575 = 157286200) ∧
  tfQ 0 = -60817408 ∧ tfQ 524288 = 127926272 ∧ tfQ 1048575 = 316669592

/-- R148, R149: the centi magnitude is the nearest number of hundredths, and at a tie the larger one; ties
occur at 16 humidity values and at 32 temperature values, the same for °C and °F. -/
def Obligations.CentiRoundsHalfAwayFromZero : Prop :=
  (∀ q : Int, ((centi q).neg = true ↔ q < 0) ∧
    2 ^ 20 * (centi q).mag ≤ q.natAbs * 100 + 2 ^ 19 ∧
    q.natAbs * 100 + 2 ^ 19 < 2 ^ 20 * ((centi q).mag + 1) ∧
    (q.natAbs * 100 % 2 ^ 20 = 2 ^ 19 → 2 ^ 20 * (centi q).mag = q.natAbs * 100 + 2 ^ 19)) ∧
  (∀ h : Raw, (humQ h).natAbs * 100 % 2 ^ 20 = 2 ^ 19 ↔ ∃ k < 16, h.toNat = 32768 + 65536 * k) ∧
  (∀ t : Raw, (tcQ t).natAbs * 100 % 2 ^ 20 = 2 ^ 19 ↔ ∃ k < 32, t.toNat = 16384 + 32768 * k) ∧
  (∀ t : Raw, (tfQ t).natAbs * 100 % 2 ^ 20 = 2 ^ 19 ↔ ∃ k < 32, t.toNat = 16384 + 32768 * k) ∧
  (centi (humQ 32768)).mag = 313 ∧ centi (tcQ 16384) = ⟨true, 4688⟩ ∧ centi (tfQ 16384) = ⟨true, 5238⟩

/-- R150: the ranges of the centi values. -/
def Obligations.CentiRanges : Prop :=
  (∀ h : Raw, (centi (humQ h)).neg = false ∧ (centi (humQ h)).mag ≤ 10000 ∧
    ((centi (humQ h)).mag = 10000 ↔ 1048524 ≤ h.toNat)) ∧
  (∀ t : Raw, ((centi (tcQ t)).neg = false → (centi (tcQ t)).mag ≤ 15000) ∧
    ((centi (tcQ t)).neg = true → (centi (tcQ t)).mag ≤ 5000)) ∧
  ∀ t : Raw, ((centi (tfQ t)).neg = false → (centi (tfQ t)).mag ≤ 30200) ∧
    ((centi (tfQ t)).neg = true → (centi (tfQ t)).mag ≤ 5800)

/-- R151: the sign is the exact value's, so -00.00 occurs: for °C exactly at t = 262118 to 262143, for °F
exactly at t = 168923 to 168937, never for humidity. -/
def Obligations.NegativeZeroOccurs : Prop :=
  (∀ t : Raw, centi (tcQ t) = ⟨true, 0⟩ ↔ 262118 ≤ t.toNat ∧ t.toNat ≤ 262143) ∧
  (∀ t : Raw, centi (tfQ t) = ⟨true, 0⟩ ↔ 168923 ≤ t.toNat ∧ t.toNat ≤ 168937) ∧
  ∀ h : Raw, (centi (humQ h)).neg = false

/-- R152, R153: the digits are decimal digits of m mod 10000, RANGE is set exactly when m ≥ 10000, at which
raw values that is (for humidity only m = 10000), and a negative value never sets it. -/
def Obligations.DigitsWrapWithRange : Prop :=
  (∀ q : Int, (digits q).neg = (centi q).neg ∧
    (digits q).d3 ≤ 9 ∧ (digits q).d2 ≤ 9 ∧ (digits q).d1 ≤ 9 ∧ (digits q).d0 ≤ 9 ∧
    1000 * (digits q).d3 + 100 * (digits q).d2 + 10 * (digits q).d1 + (digits q).d0 =
      (centi q).mag % 10000 ∧
    ((digits q).range = true ↔ 10000 ≤ (centi q).mag)) ∧
  (∀ h : Raw, ((digits (humQ h)).range = true ↔ 1048524 ≤ h.toNat) ∧
    ((digits (humQ h)).range = true → (centi (humQ h)).mag = 10000)) ∧
  (∀ t : Raw, (digits (tcQ t)).range = true ↔ 786406 ≤ t.toNat) ∧
  (∀ t : Raw, (digits (tfQ t)).range = true ↔ 460194 ≤ t.toNat) ∧
  (∀ t : Raw, (tcQ t < 0 → (digits (tcQ t)).range = false) ∧
    (tfQ t < 0 → (digits (tfQ t)).range = false)) ∧
  digits (tfQ 524288) = ⟨false, true, 2, 2, 0, 0⟩

/-! ### The CRC -/

/-- R101: one step of the CRC is division by x^8 + x^5 + x^4 + 1: the remainder of (c XOR b) * x^8. -/
def Obligations.CrcStepIsPolynomialDivision : Prop :=
  ∀ c b : Byte, crc8Step c b = polyRemainder ((c ^^^ b) ++ 0x00#8)

/-- R101: the corner cases and the example of crc8_step. -/
def Obligations.CrcStepCornerCases : Prop :=
  crc8Step 0x00 0x00 = 0x00 ∧ crc8Step 0xFF 0xFF = 0x00 ∧ crc8Step 0x00 0x01 = 0x31 ∧
  crc8Step 0xFF 0x00 = 0xAC ∧ crc8Step 0xFF 0x1E = 0xF0

/-- R102: crc8 of no bytes is 0xFF and each further byte is one crc8_step; its corner case and example. -/
def Obligations.CrcOfASequence : Prop :=
  crc8 [] = 0xFF ∧ (∀ (bs : List Byte) (b : Byte), crc8 (bs ++ [b]) = crc8Step (crc8 bs) b) ∧
  crc8 [0x00, 0x00, 0x00, 0x00, 0x00, 0x00] = 0x6A ∧ crc8 [0x1E, 0x9F, 0x80, 0x4A, 0x3C] = 0x14

/-- R103: the CRC of a frame spans its bytes 0 to 5 in index order, and it matches when it equals
byte 6. -/
def Obligations.CrcSpanAndMatch : Prop :=
  ∀ f : Frame, frameCrc f = crc8 [f[0], f[1], f[2], f[3], f[4], f[5]] ∧
    (crcMatch f = true ↔ crc8 [f[0], f[1], f[2], f[3], f[4], f[5]] = f[6])

/-- R105: for every byte sequence X, crc8(X ++ [crc8(X)]) = 0x00. -/
def Obligations.CrcResidueIsZero : Prop :=
  ∀ bs : List Byte, crc8 (bs ++ [crc8 bs]) = 0x00

/-! ### The extractor -/

/-- R122, R123, R124, R125: both fields are slices of the frame side by side: {F[1], ..., F[5]} is
{extract_h(F), extract_t(F)}; and neither reads F[0] or F[6]. -/
def Obligations.RawFieldsAreTheFortyDataBits : Prop :=
  (∀ f : Frame, extractH f = f[1] ++ f[2] ++ f[3].extractLsb' 4 4 ∧
    extractT f = f[3].extractLsb' 0 4 ++ f[4] ++ f[5] ∧
    extractH f ++ extractT f = f[1] ++ f[2] ++ f[3] ++ f[4] ++ f[5]) ∧
  ∀ (f : Frame) (x y : Byte), extractH ((f.set 0 x).set 6 y) = extractH f ∧
    extractT ((f.set 0 x).set 6 y) = extractT f

/-- R126: the frame constructed from a status byte and two raw fields matches its CRC and gives the fields
back; the example. -/
def Obligations.ConstructedFrameGivesItsFieldsBack : Prop :=
  (∀ (s : Byte) (h t : Raw), (makeFrame s h t)[0] = s ∧ extractH (makeFrame s h t) = h ∧
    extractT (makeFrame s h t) = t ∧ crcMatch (makeFrame s h t) = true) ∧
  makeFrame 0x18 0x80000 0x80000 = #v[0x18, 0x80, 0x00, 0x08, 0x00, 0x00, 0xD4]
end

