-- ==== Sys2Proof/Laws/Crc8.lean ====
section
/-! SUPPORT. The CRC engine as a function of byte sequences, and the receive buffer as a growing list. -/

namespace Sys2Proof.Machine

@[simp] theorem crc8_nil : crc8 [] = crcInit := rfl

/-- Folding one more byte in is one `crc8_step` (R102). -/
theorem crc8_append_one (bs : List Byte) (b : Byte) : crc8 (bs ++ [b]) = crc8Step (crc8 bs) b := by
  simp [crc8]

/-- A zero stays zero under the bit loop. -/
@[simp] theorem crcShift_zero : crcShift 0 = 0 := by decide

/-- Writing byte i of a list and taking i + 1 bytes appends the written byte to the first i. -/
theorem take_succ_set {α : Type} (l : List α) (i : Nat) (b : α) (h : i < l.length) :
    (l.set i b).take (i + 1) = l.take i ++ [b] := by
  rw [List.take_succ_eq_append_getElem (by simpa using h)]
  simp [List.take_set_of_le]

/-- The bytes received after an accumulating PUSH: those before it and the new one (R175). -/
theorem take_set_rx (rx : Vector Byte 6) (i : Nat) (b : Byte) (h : i < 6) :
    (rx.set i b h).toList.take (i + 1) = rx.toList.take i ++ [b] := by
  have := take_succ_set rx.toList i b (by simpa using h)
  simpa [Vector.toList, Vector.set] using this

/-- The CRC span of a completed frame is the receive buffer (R103, R176). -/
theorem take_receivedFrame (b : Byte) (s : State) : (receivedFrame b s).toList.take 6 = s.rx.toList := by
  simp [receivedFrame, Vector.toList_push]

/-- The frame's own CRC is the CRC of the receive buffer (R176). -/
theorem frameCrc_receivedFrame (b : Byte) (s : State) : frameCrc (receivedFrame b s) = crc8 s.rx.toList := by
  rw [frameCrc, take_receivedFrame]

/-- The seventh byte of a completed frame is the byte pushed (R176). -/
@[simp] theorem receivedFrame_last (b : Byte) (s : State) : (receivedFrame b s)[6] = b := by
  simp [receivedFrame]

end Sys2Proof.Machine
end

