-- ==== Sys2Proof/Laws/Decode.lean ====
section
/-! SUPPORT. A word is its three fields, and everything `decode` can answer. -/

namespace Sys2Proof

/-- A word is its OP, ADDR and DATA fields side by side (R70). -/
theorem word_eq_fields (w : Cmd) : opField w ++ addrField w ++ dataField w = w := by
  rw [opField, addrField, dataField, BitVec.extractLsb'_append_extractLsb'_eq_extractLsb' (by decide),
    BitVec.extractLsb'_append_extractLsb'_eq_extractLsb' (by decide)]
  exact BitVec.extractLsb'_eq_self

/-- Everything a legal word can be, in terms of its fields (R73). -/
theorem decode_legal_cases {w : Cmd} {i : Instr} (h : decode w = .legal i) :
    (i = .nop ∧ opField w = 0 ∧ addrField w = 0 ∧ dataField w = 0) ∨
    (i = .start ∧ opField w = 1 ∧ addrField w = 0 ∧ dataField w = 0) ∨
    (i = .push (dataField w) ∧ opField w = 2 ∧ addrField w = 0) ∨
    (i = .abort ∧ opField w = 3 ∧ addrField w = 0 ∧ dataField w = 0) ∨
    (i = .read (addrField w) ∧ opField w = 4 ∧ dataField w = 0 ∧ readableAddr (addrField w) = true) := by
  have hop : ∀ n, n < 16 → (opField w).toNat = n → opField w = BitVec.ofNat 4 n := by
    intro n hn h
    apply BitVec.eq_of_toNat_eq
    rw [h, BitVec.toNat_ofNat, Nat.mod_eq_of_lt (by omega)]
  unfold decode at h
  split at h
  case h_1 h0 =>
    have := hop _ (by decide) h0
    unfold decodePlain at h
    (split at h <;> try split at h) <;> simp_all
  case h_2 h0 =>
    have := hop _ (by decide) h0
    unfold decodePlain at h
    (split at h <;> try split at h) <;> simp_all
  case h_3 h0 =>
    have := hop _ (by decide) h0
    unfold decodePush at h
    split at h <;> simp_all
  case h_4 h0 =>
    have := hop _ (by decide) h0
    unfold decodePlain at h
    (split at h <;> try split at h) <;> simp_all
  case h_5 h0 =>
    have := hop _ (by decide) h0
    unfold decodeRead at h
    (split at h <;> try split at h) <;> simp_all
  case h_6 => simp at h

end Sys2Proof
end

