-- ==== Sys2Proof/Laws/State.lean ====
section
/-! SUPPORT. One lemma for each field of State under each shared update, so that no later proof unfolds a
record update. -/

namespace Sys2Proof.Machine

/-! ### raiseIll -/

@[simp] theorem raiseIll_cnt (s : State) : (raiseIll s).cnt = s.cnt := rfl
@[simp] theorem raiseIll_acc (s : State) : (raiseIll s).acc = s.acc := rfl
@[simp] theorem raiseIll_rx (s : State) : (raiseIll s).rx = s.rx := rfl
@[simp] theorem raiseIll_frame (s : State) : (raiseIll s).frame = s.frame := rfl
@[simp] theorem raiseIll_crcc (s : State) : (raiseIll s).crcc = s.crcc := rfl
@[simp] theorem raiseIll_res (s : State) : (raiseIll s).res = s.res := rfl
@[simp] theorem raiseIll_valid (s : State) : (raiseIll s).valid = s.valid := rfl
@[simp] theorem raiseIll_ill (s : State) : (raiseIll s).ill = true := rfl
@[simp] theorem raiseIll_rawH (s : State) : (raiseIll s).rawH = s.rawH := rfl
@[simp] theorem raiseIll_rawT (s : State) : (raiseIll s).rawT = s.rawT := rfl
@[simp] theorem raiseIll_rdata (s : State) : (raiseIll s).rdata = s.rdata := rfl
@[simp] theorem raiseIll_edges (s : State) : (raiseIll s).edges = s.edges := rfl
@[simp] theorem raiseIll_freeIdx (s : State) : (raiseIll s).freeIdx = s.freeIdx := rfl

/-! ### rearm -/

@[simp] theorem rearm_cnt (s : State) : (rearm s).cnt = 0 := rfl
@[simp] theorem rearm_acc (s : State) : (rearm s).acc = crcInit := rfl
@[simp] theorem rearm_rx (s : State) : (rearm s).rx = s.rx := rfl
@[simp] theorem rearm_frame (s : State) : (rearm s).frame = s.frame := rfl
@[simp] theorem rearm_crcc (s : State) : (rearm s).crcc = s.crcc := rfl
@[simp] theorem rearm_res (s : State) : (rearm s).res = s.res := rfl
@[simp] theorem rearm_valid (s : State) : (rearm s).valid = s.valid := rfl
@[simp] theorem rearm_ill (s : State) : (rearm s).ill = s.ill := rfl
@[simp] theorem rearm_rawH (s : State) : (rearm s).rawH = s.rawH := rfl
@[simp] theorem rearm_rawT (s : State) : (rearm s).rawT = s.rawT := rfl
@[simp] theorem rearm_rdata (s : State) : (rearm s).rdata = s.rdata := rfl
@[simp] theorem rearm_edges (s : State) : (rearm s).edges = s.edges := rfl
@[simp] theorem rearm_freeIdx (s : State) : (rearm s).freeIdx = s.freeIdx := rfl

/-! ### setOutcome -/

@[simp] theorem setOutcome_cnt (r : BitVec 3) (s : State) : (setOutcome r s).cnt = s.cnt := rfl
@[simp] theorem setOutcome_acc (r : BitVec 3) (s : State) : (setOutcome r s).acc = s.acc := rfl
@[simp] theorem setOutcome_rx (r : BitVec 3) (s : State) : (setOutcome r s).rx = s.rx := rfl
@[simp] theorem setOutcome_frame (r : BitVec 3) (s : State) : (setOutcome r s).frame = s.frame := rfl
@[simp] theorem setOutcome_crcc (r : BitVec 3) (s : State) : (setOutcome r s).crcc = s.crcc := rfl
@[simp] theorem setOutcome_res (r : BitVec 3) (s : State) : (setOutcome r s).res = r := rfl
@[simp] theorem setOutcome_valid (r : BitVec 3) (s : State) : (setOutcome r s).valid = s.valid := rfl
@[simp] theorem setOutcome_ill (r : BitVec 3) (s : State) : (setOutcome r s).ill = s.ill := rfl
@[simp] theorem setOutcome_rawH (r : BitVec 3) (s : State) : (setOutcome r s).rawH = s.rawH := rfl
@[simp] theorem setOutcome_rawT (r : BitVec 3) (s : State) : (setOutcome r s).rawT = s.rawT := rfl
@[simp] theorem setOutcome_rdata (r : BitVec 3) (s : State) : (setOutcome r s).rdata = s.rdata := rfl
@[simp] theorem setOutcome_edges (r : BitVec 3) (s : State) : (setOutcome r s).edges = s.edges := rfl
@[simp] theorem setOutcome_freeIdx (r : BitVec 3) (s : State) : (setOutcome r s).freeIdx = s.freeIdx := rfl

/-! ### accumulate -/

@[simp] theorem accumulate_cnt (b : Byte) (s : State) : (accumulate b s).cnt = s.cnt + 1 := rfl
@[simp] theorem accumulate_acc (b : Byte) (s : State) : (accumulate b s).acc = crc8Step s.acc b := rfl
@[simp] theorem accumulate_rx (b : Byte) (s : State) : (accumulate b s).rx = s.rx.setIfInBounds s.cnt.val b := rfl
@[simp] theorem accumulate_frame (b : Byte) (s : State) : (accumulate b s).frame = s.frame := rfl
@[simp] theorem accumulate_crcc (b : Byte) (s : State) : (accumulate b s).crcc = s.crcc := rfl
@[simp] theorem accumulate_res (b : Byte) (s : State) : (accumulate b s).res = s.res := rfl
@[simp] theorem accumulate_valid (b : Byte) (s : State) : (accumulate b s).valid = s.valid := rfl
@[simp] theorem accumulate_ill (b : Byte) (s : State) : (accumulate b s).ill = s.ill := rfl
@[simp] theorem accumulate_rawH (b : Byte) (s : State) : (accumulate b s).rawH = s.rawH := rfl
@[simp] theorem accumulate_rawT (b : Byte) (s : State) : (accumulate b s).rawT = s.rawT := rfl
@[simp] theorem accumulate_rdata (b : Byte) (s : State) : (accumulate b s).rdata = s.rdata := rfl
@[simp] theorem accumulate_edges (b : Byte) (s : State) : (accumulate b s).edges = s.edges := rfl
@[simp] theorem accumulate_freeIdx (b : Byte) (s : State) : (accumulate b s).freeIdx = s.freeIdx := rfl

/-! ### latchFrame -/

@[simp] theorem latchFrame_cnt (f : Frame) (s : State) : (latchFrame f s).cnt = s.cnt := rfl
@[simp] theorem latchFrame_acc (f : Frame) (s : State) : (latchFrame f s).acc = s.acc := rfl
@[simp] theorem latchFrame_rx (f : Frame) (s : State) : (latchFrame f s).rx = s.rx := rfl
@[simp] theorem latchFrame_frame (f : Frame) (s : State) : (latchFrame f s).frame = f := rfl
@[simp] theorem latchFrame_crcc (f : Frame) (s : State) : (latchFrame f s).crcc = s.acc := rfl
@[simp] theorem latchFrame_res (f : Frame) (s : State) : (latchFrame f s).res = s.res := rfl
@[simp] theorem latchFrame_valid (f : Frame) (s : State) : (latchFrame f s).valid = s.valid := rfl
@[simp] theorem latchFrame_ill (f : Frame) (s : State) : (latchFrame f s).ill = s.ill := rfl
@[simp] theorem latchFrame_rawH (f : Frame) (s : State) : (latchFrame f s).rawH = s.rawH := rfl
@[simp] theorem latchFrame_rawT (f : Frame) (s : State) : (latchFrame f s).rawT = s.rawT := rfl
@[simp] theorem latchFrame_rdata (f : Frame) (s : State) : (latchFrame f s).rdata = s.rdata := rfl
@[simp] theorem latchFrame_edges (f : Frame) (s : State) : (latchFrame f s).edges = s.edges := rfl
@[simp] theorem latchFrame_freeIdx (f : Frame) (s : State) : (latchFrame f s).freeIdx = s.freeIdx := rfl

/-! ### commit -/

@[simp] theorem commit_cnt (f : Frame) (s : State) : (commit f s).cnt = s.cnt := rfl
@[simp] theorem commit_acc (f : Frame) (s : State) : (commit f s).acc = s.acc := rfl
@[simp] theorem commit_rx (f : Frame) (s : State) : (commit f s).rx = s.rx := rfl
@[simp] theorem commit_frame (f : Frame) (s : State) : (commit f s).frame = s.frame := rfl
@[simp] theorem commit_crcc (f : Frame) (s : State) : (commit f s).crcc = s.crcc := rfl
@[simp] theorem commit_res (f : Frame) (s : State) : (commit f s).res = s.res := rfl
@[simp] theorem commit_valid (f : Frame) (s : State) : (commit f s).valid = true := rfl
@[simp] theorem commit_ill (f : Frame) (s : State) : (commit f s).ill = s.ill := rfl
@[simp] theorem commit_rawH (f : Frame) (s : State) : (commit f s).rawH = extractH f := rfl
@[simp] theorem commit_rawT (f : Frame) (s : State) : (commit f s).rawT = extractT f := rfl
@[simp] theorem commit_rdata (f : Frame) (s : State) : (commit f s).rdata = s.rdata := rfl
@[simp] theorem commit_edges (f : Frame) (s : State) : (commit f s).edges = s.edges := rfl
@[simp] theorem commit_freeIdx (f : Frame) (s : State) : (commit f s).freeIdx = s.freeIdx := rfl

/-! ### dropEdge -/

@[simp] theorem dropEdge_cnt (s : State) : (dropEdge s).cnt = s.cnt := rfl
@[simp] theorem dropEdge_acc (s : State) : (dropEdge s).acc = s.acc := rfl
@[simp] theorem dropEdge_rx (s : State) : (dropEdge s).rx = s.rx := rfl
@[simp] theorem dropEdge_frame (s : State) : (dropEdge s).frame = s.frame := rfl
@[simp] theorem dropEdge_crcc (s : State) : (dropEdge s).crcc = s.crcc := rfl
@[simp] theorem dropEdge_res (s : State) : (dropEdge s).res = s.res := rfl
@[simp] theorem dropEdge_valid (s : State) : (dropEdge s).valid = s.valid := rfl
@[simp] theorem dropEdge_ill (s : State) : (dropEdge s).ill = s.ill := rfl
@[simp] theorem dropEdge_rawH (s : State) : (dropEdge s).rawH = s.rawH := rfl
@[simp] theorem dropEdge_rawT (s : State) : (dropEdge s).rawT = s.rawT := rfl
@[simp] theorem dropEdge_rdata (s : State) : (dropEdge s).rdata = s.rdata := rfl
@[simp] theorem dropEdge_edges (s : State) : (dropEdge s).edges = s.edges.tail := rfl
@[simp] theorem dropEdge_freeIdx (s : State) : (dropEdge s).freeIdx = s.freeIdx := rfl

/-! ### presentCmd -/

@[simp] theorem presentCmd_cnt (w : Cmd) (s : State) : (presentCmd w s).cnt = s.cnt := rfl
@[simp] theorem presentCmd_acc (w : Cmd) (s : State) : (presentCmd w s).acc = s.acc := rfl
@[simp] theorem presentCmd_rx (w : Cmd) (s : State) : (presentCmd w s).rx = s.rx := rfl
@[simp] theorem presentCmd_frame (w : Cmd) (s : State) : (presentCmd w s).frame = s.frame := rfl
@[simp] theorem presentCmd_crcc (w : Cmd) (s : State) : (presentCmd w s).crcc = s.crcc := rfl
@[simp] theorem presentCmd_res (w : Cmd) (s : State) : (presentCmd w s).res = s.res := rfl
@[simp] theorem presentCmd_valid (w : Cmd) (s : State) : (presentCmd w s).valid = s.valid := rfl
@[simp] theorem presentCmd_ill (w : Cmd) (s : State) : (presentCmd w s).ill = s.ill := rfl
@[simp] theorem presentCmd_rawH (w : Cmd) (s : State) : (presentCmd w s).rawH = s.rawH := rfl
@[simp] theorem presentCmd_rawT (w : Cmd) (s : State) : (presentCmd w s).rawT = s.rawT := rfl
@[simp] theorem presentCmd_rdata (w : Cmd) (s : State) : (presentCmd w s).rdata = s.rdata := rfl
@[simp] theorem presentCmd_edges (w : Cmd) (s : State) : (presentCmd w s).edges = commandEdge w :: s.edges := rfl
@[simp] theorem presentCmd_freeIdx (w : Cmd) (s : State) : (presentCmd w s).freeIdx = s.freeIdx := rfl

/-! ### resetEdge -/

@[simp] theorem resetEdge_cnt (s : State) : (resetEdge s).cnt = State.reset.cnt := rfl
@[simp] theorem resetEdge_acc (s : State) : (resetEdge s).acc = State.reset.acc := rfl
@[simp] theorem resetEdge_rx (s : State) : (resetEdge s).rx = freeRx s.freeIdx := rfl
@[simp] theorem resetEdge_frame (s : State) : (resetEdge s).frame = State.reset.frame := rfl
@[simp] theorem resetEdge_crcc (s : State) : (resetEdge s).crcc = State.reset.crcc := rfl
@[simp] theorem resetEdge_res (s : State) : (resetEdge s).res = State.reset.res := rfl
@[simp] theorem resetEdge_valid (s : State) : (resetEdge s).valid = State.reset.valid := rfl
@[simp] theorem resetEdge_ill (s : State) : (resetEdge s).ill = State.reset.ill := rfl
@[simp] theorem resetEdge_rawH (s : State) : (resetEdge s).rawH = State.reset.rawH := rfl
@[simp] theorem resetEdge_rawT (s : State) : (resetEdge s).rawT = State.reset.rawT := rfl
@[simp] theorem resetEdge_rdata (s : State) : (resetEdge s).rdata = State.reset.rdata := rfl
@[simp] theorem resetEdge_edges (s : State) : (resetEdge s).edges = s.edges := rfl
@[simp] theorem resetEdge_freeIdx (s : State) : (resetEdge s).freeIdx = s.freeIdx + 6 := rfl

/-- Presenting a word and taking the nearest edge off again gives the state back. -/
@[simp] theorem dropEdge_presentCmd (w : Cmd) (s : State) : dropEdge (presentCmd w s) = s := rfl

end Sys2Proof.Machine
end

