-- ==== Sys2Proof/Laws/Ops.lean ====
section
/-! SUPPORT. One lemma for each shared operation and for each command that says once everything it can
do; later proofs cite these and unfold nothing. -/

namespace Sys2Proof.Machine

/-- Everything `outcomeOf` can answer (R177). -/
theorem outcomeOf_cases (f : Frame) (acc : Byte) :
    (busyFlag f = true ∧ outcomeOf f acc = resBusy) ∨
    (busyFlag f = false ∧ acc ≠ f[6] ∧ outcomeOf f acc = resCrcFail) ∨
    (busyFlag f = false ∧ acc = f[6] ∧ outcomeOf f acc = resOk) := by
  unfold outcomeOf
  by_cases hb : busyFlag f = true
  · simp [hb]
  · by_cases hc : acc = f[6] <;> simp [hb, hc]

@[simp] theorem recordOutcome_ok (f : Frame) (s : State) :
    recordOutcome resOk f s = commit f (setOutcome resOk s) := rfl

@[simp] theorem recordOutcome_busy (f : Frame) (s : State) :
    recordOutcome resBusy f s = setOutcome resBusy s := rfl

@[simp] theorem recordOutcome_crcFail (f : Frame) (s : State) :
    recordOutcome resCrcFail f s = setOutcome resCrcFail s := rfl

/-- Everything a completing PUSH can leave (R176 to R179): one of three states, by busy flag and CRC. -/
theorem complete_cases (b : Byte) (s : State) :
    (busyFlag (receivedFrame b s) = true ∧
      complete b s = rearm (setOutcome resBusy (latchFrame (receivedFrame b s) s))) ∨
    (busyFlag (receivedFrame b s) = false ∧ s.acc ≠ b ∧
      complete b s = rearm (setOutcome resCrcFail (latchFrame (receivedFrame b s) s))) ∨
    (busyFlag (receivedFrame b s) = false ∧ s.acc = b ∧
      complete b s =
        rearm (commit (receivedFrame b s) (setOutcome resOk (latchFrame (receivedFrame b s) s)))) := by
  have h := outcomeOf_cases (receivedFrame b s) s.acc
  rw [receivedFrame_last] at h
  obtain ⟨hb, ho⟩ | ⟨hb, hc, ho⟩ | ⟨hb, hc, ho⟩ := h
  · exact .inl ⟨hb, by simp only [complete, ho, recordOutcome_busy]⟩
  · exact .inr (.inl ⟨hb, hc, by simp only [complete, ho, recordOutcome_crcFail]⟩)
  · exact .inr (.inr ⟨hb, hc, by simp only [complete, ho, recordOutcome_ok]⟩)

/-- PUSH with CNT < 6 (R175). -/
theorem execPush_of_lt (b : Byte) (s : State) (h : s.cnt.val < 6) :
    execPush b s = .next (accumulate b s) := if_pos h

/-- The count after an accumulating PUSH is one more; it does not wrap (R23, R175). -/
theorem accumulate_cnt_val (b : Byte) (s : State) (h : s.cnt.val < 6) :
    (accumulate b s).cnt.val = s.cnt.val + 1 := by
  rw [accumulate_cnt, Fin.val_add]
  exact Nat.mod_eq_of_lt (by simpa using Nat.succ_lt_succ h)

/-- The byte stored by an accumulating PUSH lies inside RX (R175). -/
theorem accumulate_rx_set (b : Byte) (s : State) (h : s.cnt.val < 6) :
    (accumulate b s).rx = s.rx.set s.cnt.val b h := by
  rw [accumulate_rx, Vector.setIfInBounds, Vector.set]
  simp [Array.setIfInBounds, h]

/-- PUSH with CNT = 6 (R176). -/
theorem execPush_of_eq (b : Byte) (s : State) (h : s.cnt.val = 6) : execPush b s = .next (complete b s) :=
  if_neg (by omega)

/-- READ of an address that holds a register (R200). -/
theorem execRead_of_some {a : RegAddr} {s : State} {v : Word} (h : regValue s a = some v) :
    execRead a s = .next { s with rdata := v } := by
  simp [execRead, h]

/-- READ of an address that holds none (R201). -/
theorem execRead_of_none {a : RegAddr} {s : State} (h : regValue s a = none) :
    execRead a s = .next (raiseIll s) := by
  simp [execRead, h]

/-- The register map holds exactly the addresses 0x0 to 0xE (R33). -/
theorem regValue_isSome (s : State) (a : RegAddr) : (regValue s a).isSome = readableAddr a := by
  obtain ⟨n, hn⟩ : ∃ n, a.toNat = n := ⟨_, rfl⟩
  have hlt : n < 16 := by have := a.isLt; omega
  simp only [regValue, readableAddr, hn]
  interval_cases n <;> rfl

/-- Registers read neither RX nor RDATA nor the model's own fields (R33). -/
theorem regValue_congr {s t : State} (a : RegAddr) (hc : s.cnt = t.cnt) (ha : s.acc = t.acc)
    (hf : s.frame = t.frame) (hk : s.crcc = t.crcc) (hr : s.res = t.res) (hv : s.valid = t.valid)
    (hi : s.ill = t.ill) (hh : s.rawH = t.rawH) (ht : s.rawT = t.rawT) : regValue s a = regValue t a := by
  simp only [regValue, statusReg, crcReg, frame0Reg, frame1Reg, hc, ha, hf, hk, hr, hv, hi, hh, ht]

/-- Everything a command can do when it answers a next state: one case for each form (R171, R172, R175,
R176, R180, R200, R201). -/
theorem exec_cases {i : Instr} {s t : State} (h : exec i s = .next t) :
    (i = .nop ∧ t = s) ∨
    (i = .start ∧ t = rearm s) ∨
    (∃ b, i = .push b ∧ s.cnt.val < 6 ∧ t = accumulate b s) ∨
    (∃ b, i = .push b ∧ s.cnt.val = 6 ∧ t = complete b s) ∨
    (i = .abort ∧ t = setOutcome resReadFail (rearm s)) ∨
    (∃ a v, i = .read a ∧ regValue s a = some v ∧ t = { s with rdata := v }) ∨
    (∃ a, i = .read a ∧ regValue s a = none ∧ t = raiseIll s) := by
  cases i with
  | nop => simp_all [exec, execNop]
  | start => simp_all [exec, execStart]
  | abort => simp_all [exec, execAbort]
  | push b =>
    by_cases hc : s.cnt.val < 6
    · rw [exec, execPush_of_lt b s hc] at h
      injection h with h
      exact .inr (.inr (.inl ⟨b, rfl, hc, h.symm⟩))
    · have h6 : s.cnt.val = 6 := by omega
      rw [exec, execPush_of_eq b s h6] at h
      injection h with h
      exact .inr (.inr (.inr (.inl ⟨b, rfl, h6, h.symm⟩)))
  | read a =>
    cases hr : regValue s a with
    | some v =>
      rw [exec, execRead_of_some hr] at h
      injection h with h
      exact .inr (.inr (.inr (.inr (.inr (.inl ⟨a, v, rfl, hr, h.symm⟩)))))
    | none =>
      rw [exec, execRead_of_none hr] at h
      injection h with h
      exact .inr (.inr (.inr (.inr (.inr (.inr ⟨a, rfl, hr, h.symm⟩)))))

/-- Everything one rising edge can do when it answers a next state (R45). -/
theorem clockEdge_cases {e : Edge} {s t : State} (h : clockEdge e s = .next t) :
    (e.rst = true ∧ t = resetEdge s) ∨
    (e.rst = false ∧ e.cmdValid = false ∧ t = s) ∨
    (∃ i, e.rst = false ∧ e.cmdValid = true ∧ decode e.cmd = .legal i ∧ exec i s = .next t) ∨
    (∃ why, e.rst = false ∧ e.cmdValid = true ∧ decode e.cmd = .illegal why ∧ t = raiseIll s) := by
  cases hr : e.rst <;> cases hv : e.cmdValid <;> cases hd : decode e.cmd <;>
    simp_all [clockEdge, runWord]

/-- Everything a step can do when it answers a next state (R45, R46). -/
theorem step_cases {s t : State} (h : step s = .next t) :
    (s.edges = [] ∧ t = s) ∨
    (∃ e rest, s.edges = e :: rest ∧ clockEdge e (dropEdge s) = .next t) := by
  unfold step at h
  cases he : s.edges with
  | nil => simp_all
  | cons e rest => exact .inr ⟨e, rest, rfl, by simpa [he] using h⟩

end Sys2Proof.Machine
end

