-- ==== Sys2Proof/Laws/Frame.lean ====
section
/-! SUPPORT. Frames as seven bytes, the completing PUSH in terms of the frame alone, and the four byte lanes
of a register. -/

namespace Sys2Proof.Machine

/-- A frame is its seven bytes in index order (R120). -/
theorem frame_toList (f : Frame) : f.toList = [f[0], f[1], f[2], f[3], f[4], f[5], f[6]] := by
  obtain ⟨⟨l⟩, h⟩ := f
  match l, h with
  | [_, _, _, _, _, _, _], _ => rfl

/-- A PUSH in a sequence, accumulating case. -/
theorem runCommands_push_of_lt (b : Byte) (is : List Instr) (s : State) (h : s.cnt.val < 6) :
    runCommands (.push b :: is) s = runCommands is (accumulate b s) := by
  simp [runCommands, exec, execPush_of_lt b s h]

/-- A PUSH in a sequence, completing case. -/
theorem runCommands_push_of_eq (b : Byte) (is : List Instr) (s : State) (h : s.cnt.val = 6) :
    runCommands (.push b :: is) s = runCommands is (complete b s) := by
  simp [runCommands, exec, execPush_of_eq b s h]

/-- Where ACC is the CRC of the received bytes, a completing PUSH accepts the frame and leaves RX as it was
(R176 to R179). -/
theorem complete_eq_acceptFrame (b : Byte) (s : State) (h : s.acc = frameCrc (receivedFrame b s)) :
    complete b s = { acceptFrame s (receivedFrame b s) with rx := s.rx } := by
  have h6 := receivedFrame_last b s
  obtain ⟨hb, hs⟩ | ⟨hb, hc, hs⟩ | ⟨hb, hc, hs⟩ := complete_cases b s <;> rw [hs]
  · simp only [acceptFrame, frameOutcome, goodFrame, hb, ← h]
    simp [rearm, setOutcome, latchFrame]
  · simp only [acceptFrame, frameOutcome, goodFrame, crcMatch, hb, ← h, h6, hc]
    simp [rearm, setOutcome, latchFrame]
  · simp only [acceptFrame, frameOutcome, goodFrame, crcMatch, hb, ← h, h6, hc]
    simp [rearm, setOutcome, latchFrame, commit, hc]

/-- The byte lanes of four bytes side by side (R55). -/
theorem byte_lanes (a b c d : Byte) :
    (a ++ b ++ c ++ d : Word).extractLsb' 0 8 = d ∧ (a ++ b ++ c ++ d : Word).extractLsb' 8 8 = c ∧
    (a ++ b ++ c ++ d : Word).extractLsb' 16 8 = b ∧ (a ++ b ++ c ++ d : Word).extractLsb' 24 8 = a := by
  refine ⟨?_, ?_, ?_, ?_⟩ <;> ext i hi <;> rw [BitVec.getElem_extractLsb'] <;>
    simp only [BitVec.getLsbD_append]
  · rw [if_pos (by omega)]
    simp [BitVec.getLsbD_eq_getElem, hi]
  · rw [if_neg (by omega), if_pos (by omega)]
    simp [BitVec.getLsbD_eq_getElem, hi]
  · rw [if_neg (by omega), if_neg (by omega), if_pos (by omega)]
    simp [BitVec.getLsbD_eq_getElem, hi, show 16 + i - 8 - 8 = i by omega]
  · rw [if_neg (by omega), if_neg (by omega), if_neg (by omega)]
    simp [BitVec.getLsbD_eq_getElem, hi, show 24 + i - 8 - 8 - 8 = i by omega]

end Sys2Proof.Machine
end

