-- ==== Sys2Proof/Laws/PerInstr.lean ====
section
/-! SUPPORT. What holds of every command's word, one lemma for each constructor (LAWS.json). -/

namespace Sys2Proof.Laws.EncodedFields

/-- The operation code of the opcode map (R73). -/
def opcode : Instr → BitVec 4
  | .nop => 0x0
  | .start => 0x1
  | .push _ => 0x2
  | .abort => 0x3
  | .read _ => 0x4

/-- The register address a word carries: zero but for READ (R70, R73). -/
def address : Instr → RegAddr
  | .read a => a
  | .nop | .start | .push _ | .abort => 0

/-- The byte a word carries: zero but for PUSH (R70, R73). -/
def byte : Instr → Byte
  | .push b => b
  | .nop | .start | .abort | .read _ => 0

/-- The three fields of a command's word are its operation code, its address and its byte (R70, R73). -/
def Statement (i : Instr) : Prop :=
  opField (encode i) = opcode i ∧ addrField (encode i) = address i ∧ dataField (encode i) = byte i

theorem nop : Statement .nop := by unfold Statement; decide

theorem start : Statement .start := by unfold Statement; decide

theorem push (b : Byte) : Statement (.push b) := by unfold Statement; revert b; decide +kernel

theorem abort : Statement .abort := by unfold Statement; decide

theorem read (a : RegAddr) : Statement (.read a) := by unfold Statement; revert a; decide +kernel

end Sys2Proof.Laws.EncodedFields
end

