-- ==== Sys2Proof/Laws/Scaler.lean ====
section
/-! SUPPORT. The sign, magnitude and digits of a Q.20 value, each said once. -/

namespace Sys2Proof.Machine

theorem centi_neg (q : Int) : (centi q).neg = decide (q < 0) := rfl

theorem centi_mag (q : Int) : (centi q).mag = (q.natAbs * 100 + 2 ^ 19) / 2 ^ 20 := rfl

/-- NEG is the sign of the exact value (R151). -/
theorem centi_neg_iff (q : Int) : (centi q).neg = true ↔ q < 0 := by
  rw [centi_neg, decide_eq_true_eq]

/-- RANGE says that the magnitude has more than four digits (R152). -/
theorem digits_range_iff (q : Int) : (digits q).range = true ↔ 10000 ≤ (centi q).mag := by
  simp [digits]

@[simp] theorem digits_neg (q : Int) : (digits q).neg = (centi q).neg := rfl

@[simp] theorem digits_d3 (q : Int) : (digits q).d3 = (centi q).mag / 1000 % 10 := rfl

@[simp] theorem digits_d2 (q : Int) : (digits q).d2 = (centi q).mag / 100 % 10 := rfl

@[simp] theorem digits_d1 (q : Int) : (digits q).d1 = (centi q).mag / 10 % 10 := rfl

@[simp] theorem digits_d0 (q : Int) : (digits q).d0 = (centi q).mag % 10 := rfl

end Sys2Proof.Machine
end

