-- ==== Sys2Proof/Tests/Slice0.lean ====
section
/-! SUPPORT. The model's own tests. Every expected value is the spec's (the rule, or the vector of
95_test_vectors, is named), and the last part shows states that meet the hypotheses of the obligations. -/

namespace Sys2Proof.Machine

/-! ### Well-formedness: the one check, on an ill-formed and on boundary terms (R73, R76) -/

theorem test_wf_refuses_read_of_0xF : Instr.wf (.read 0xF) = false := by decide
theorem test_wf_takes_read_of_0xE : Instr.wf (.read 0xE) = true := by decide

/-! ### Decoding: words written out bit by bit from `oooo aaaa dddd dddd` (R70, R73) -/

theorem test_decode_nop_word : decode 0b0000000000000000 = .legal .nop := by decide
theorem test_decode_start_word : decode 0b0001000000000000 = .legal .start := by decide
theorem test_decode_push_word : decode 0b0010000000011110 = .legal (.push 0x1E) := by decide
theorem test_decode_abort_word : decode 0b0011000000000000 = .legal .abort := by decide
theorem test_decode_read_word : decode 0b0100011100000000 = .legal (.read 0x7) := by decide

/-- V-ENC-1: the illegal rows, each under the decoder's name for the reason the row gives. -/
theorem test_decode_illegal_words :
    decode 0x0001 = .illegal .nonzeroData ∧ decode 0x0100 = .illegal .nonzeroAddr ∧
    decode 0x10FF = .illegal .nonzeroData ∧ decode 0x2100 = .illegal .nonzeroAddr ∧
    decode 0x3080 = .illegal .nonzeroData ∧ decode 0x4001 = .illegal .nonzeroData ∧
    decode 0x4F00 = .illegal .reservedRegister ∧ decode 0x5000 = .illegal .reservedOp ∧
    decode 0xFFFF = .illegal .reservedOp := by decide

theorem test_encode_push_255 : encode (.push 255) = 0x20FF := by decide

/-! ### CRC, extractor, scaler -/

/-- V-CRC-1: the catalogue check value. -/
theorem test_crc_of_123456789 :
    crc8 [0x31, 0x32, 0x33, 0x34, 0x35, 0x36, 0x37, 0x38, 0x39] = 0xF7 := by decide +kernel

/-- V-CRC-7, last row. -/
theorem test_crc_of_six_bytes : crc8 [0x98, 0x10, 0x00, 0x01, 0x00, 0x00] = 0xE3 := by decide +kernel

/-- V-FLD-1, row 12 34 56 78 9A. -/
theorem test_extract_asymmetric_frame :
    extractH #v[0, 0x12, 0x34, 0x56, 0x78, 0x9A, 0] = 0x12345 ∧
    extractT #v[0, 0x12, 0x34, 0x56, 0x78, 0x9A, 0] = 0x6789A := by decide

/-- V-FLD-2, first vector. -/
theorem test_make_frame :
    makeFrame 0x1C 0x73333 0x5E148 = #v[0x1C, 0x73, 0x33, 0x35, 0xE1, 0x48, 0x39] := by decide +kernel

/-- V-SCL-2, row t = 16384: the tie, the sign and the digits. -/
theorem test_celsius_at_the_tie :
    qReg (tcQ 0x04000) = 0xFD120000 ∧ centiReg (tcQ 0x04000) = 0x80001250 ∧
    digitReg (tcQ 0x04000) = 0x80004688 := by decide

/-- V-SCL-3, row t = 786406: RANGE and wrapped digits. -/
theorem test_fahrenheit_wraps :
    qReg (tfQ 0xBFFE6) = 0x0D3FDB70 ∧ centiReg (tfQ 0xBFFE6) = 0x000052CF ∧
    digitReg (tfQ 0xBFFE6) = 0x00011199 := by decide

/-- V-SCL-2, row t = 262118: negative zero. -/
theorem test_celsius_negative_zero :
    centiReg (tcQ 0x3FFE6) = 0x80000000 ∧ digitReg (tcQ 0x3FFE6) = 0x80000000 := by decide

/-! ### One step on a small state -/

/-- The reset state in the middle of a frame: the first `n` bytes of `d` received. -/
def received (d : Vector Byte 6) (n : Fin 7) : State :=
  { State.reset with cnt := n, rx := d, acc := crc8 (d.toList.take n.val) }

/-- Bytes 0 to 5 of the frame of V-FRM-1. -/
def goodBytes : Vector Byte 6 := #v[0x18, 0x80, 0x00, 0x08, 0x00, 0x00]

/-- Bytes 0 to 5 of the busy frame of V-FRM-2. -/
def busyBytes : Vector Byte 6 := #v[0x80, 0x80, 0x00, 0x08, 0x00, 0x00]

/-- The state a command leaves. -/
def after (o : Host.Outcome State Fault Refusal) : State :=
  match o with
  | .next t => t
  | .fault r => nomatch r
  | .refused _ => State.reset

/-- V-FRM-10: NOP in the middle of a frame leaves CNT and ACC. -/
theorem test_nop_mid_frame :
    (after (exec .nop (received goodBytes 2))).cnt = 2 ∧
    (after (exec .nop (received goodBytes 2))).acc = 0xA2 := by decide +kernel

/-- V-FRM-6: START in the middle of a frame. -/
theorem test_start_mid_frame :
    (after (exec .start (received goodBytes 2))).cnt = 0 ∧
    (after (exec .start (received goodBytes 2))).acc = 0xFF := by decide +kernel

/-- P4 row 4: the third byte of the frame. -/
theorem test_push_third_byte :
    (after (exec (.push 0x00) (received goodBytes 2))).cnt = 3 ∧
    (after (exec (.push 0x00) (received goodBytes 2))).acc = 0x9E := by decide +kernel

/-- V-FRM-1: the seventh byte; STATUS and CRC of the dump. -/
theorem test_push_seventh_byte :
    statusReg (after (exec (.push 0xD4) (received goodBytes 6))) = 0x00000209 ∧
    crcReg (after (exec (.push 0xD4) (received goodBytes 6))) = 0x00FFD4D4 := by decide +kernel

/-- V-FRM-5: ABORT after three bytes. -/
theorem test_abort_mid_frame :
    statusReg (after (exec .abort (received #v[0x18, 0x00, 0x00, 0, 0, 0] 3))) = 0x00000004 := by
  decide +kernel

/-- V-RD-3: READ of CRC in the middle of a frame shows ACC. -/
theorem test_read_crc_mid_frame :
    (after (exec (.read 0x1) (received goodBytes 3))).rdata = 0x009E006A := by decide +kernel

/-- V-RD-1: READ of TCQ from reset, by a step, as the first command after reset. -/
theorem test_step_reads_tcq_after_reset :
    (after (step (State.reset.withFetchWord 16 0x4700))).rdata = 0xFCE00000 := by decide +kernel

/-- V-ILL-1: an illegal word from reset. -/
theorem test_step_illegal_word :
    step (State.reset.withFetchWord 16 0x5000) = .next { State.reset with ill := true } := rfl

/-- P1: the assembler's words for `FRAMEC`. -/
theorem test_assemble_framec :
    asmLine "FRAMEC 0x1C, 0x73, 0x33, 0x35, 0xE1, 0x48".toList =
      some [0x1000, 0x201C, 0x2073, 0x2033, 0x2035, 0x20E1, 0x2048, 0x2039] := by decide +kernel

/-- R79: the ends of the ranges of a byte and of a register number. -/
theorem test_assembler_boundaries :
    asmByte "255".toList = some 0xFF ∧ asmByte "256".toList = none ∧
    asmByte "0xff".toList = some 0xFF ∧ asmByte "0x100".toList = none ∧
    asmReg "14".toList = some 0xE ∧ asmReg "15".toList = none := by decide +kernel

/-! ### Witnesses: states and operands that meet the hypotheses of the obligations -/

/-- The states of an unfinished first frame have the invariant. -/
theorem received_inv (d : Vector Byte 6) (n : Fin 7) : (received d n).Inv where
  running := rfl
  recorded := show (0x6A : Byte) = frameCrc State.reset.frame by decide +kernel
  resCode := Nat.zero_le 4
  noneYet := fun _ => ⟨rfl, rfl⟩
  okCommitted := fun h => absurd (show (0 : BitVec 3) = 1 from h) (by decide)
  busyRecorded := fun h => absurd (show (0 : BitVec 3) = 2 from h) (by decide)
  failRecorded := fun h => absurd (show (0 : BitVec 3) = 3 from h) (by decide)
  noReading := fun _ => ⟨rfl, rfl⟩

/-- DecodeOfEncode: a well-formed command, at the boundary of the register map. -/
theorem test_witness_DecodeOfEncode : Instr.wf (.read 0xE) = true := by decide

/-- LegalWordIsItsCommandsWord: a legal word. -/
theorem test_witness_LegalWordIsItsCommandsWord : decode 0x4E00 = .legal (.read 0xE) := by decide

/-- LegalWordsAreTheOpcodeMap: an address that is not 0xF. -/
theorem test_witness_LegalWordsAreTheOpcodeMap : (0xE : RegAddr) ≠ 0xF := by decide

/-- IllegalWordsSetIllAndNothingElse: an illegal word for each clause, at its boundary. -/
theorem test_witness_IllegalWords :
    isLegal 0x5000 = false ∧ isLegal 0x3100 = false ∧ isLegal 0x4001 = false ∧ isLegal 0x1001 = false ∧
    isLegal 0x4F00 = false := by decide

/-- StepRunsTheDecodedCommand: a waiting edge with a legal command, and an opcode-table word. -/
theorem test_witness_StepRunsTheDecodedCommand :
    (presentCmd 0x20FF State.reset).edges = [commandEdge 0x20FF] ∧ (commandEdge 0x20FF).rst = false ∧
    (commandEdge 0x20FF).cmdValid = true ∧ decode (commandEdge 0x20FF).cmd = .legal (.push 0xFF) ∧
    decodeTableWord 16 0x4700 = some (.read 0x7) := by decide

/-- StepWithoutALegalCommand: no waiting edge, a reset edge with a command, an idle edge, an illegal word. -/
theorem test_witness_StepWithoutALegalCommand :
    State.reset.edges = [] ∧ (⟨true, true, 0x1000⟩ : Edge).rst = true ∧
    ((⟨false, false, 0x1000⟩ : Edge).rst = false ∧ (⟨false, false, 0x1000⟩ : Edge).cmdValid = false) ∧
    (commandEdge 0x5000).rst = false ∧ (commandEdge 0x5000).cmdValid = true ∧
    isLegal (commandEdge 0x5000).cmd = false := by decide

/-- NopChangesNothing: a word with OP = 0x0 that is not 0x0000. -/
theorem test_witness_NopChangesNothing : (0x0001 : Cmd).extractLsb' 12 4 = 0x0 ∧ (0x0001 : Cmd) ≠ 0x0000 := by
  decide

/-- StartDropsThePartialFrame: the invariant with CNT = 0. -/
theorem test_witness_StartDropsThePartialFrame :
    (received goodBytes 0).Inv ∧ (received goodBytes 0).cnt = 0 := ⟨received_inv _ _, rfl⟩

/-- PushAccumulatesAByte: CNT at both ends of its range. -/
theorem test_witness_PushAccumulatesAByte :
    (received goodBytes 0).cnt.val < 6 ∧ (received goodBytes 5).cnt.val < 6 := by decide

/-- PushCompletesAFrame, OutcomeIsBusyThenCrc, CommitAllTogetherOrNone: the invariant with CNT = 6, for a
busy frame, a frame with a wrong CRC (byte 0xD5) and a good one (byte 0xD4). -/
theorem test_witness_PushCompletesAFrame :
    ((received busyBytes 6).Inv ∧ (received busyBytes 6).cnt.val = 6 ∧
      (received busyBytes 6).rx[0].getLsbD 7 = true) ∧
    ((received goodBytes 6).Inv ∧ (received goodBytes 6).cnt.val = 6 ∧
      (received goodBytes 6).rx[0].getLsbD 7 = false) ∧
    (received goodBytes 6).acc ≠ 0xD5 ∧ (received goodBytes 6).acc = 0xD4 :=
  ⟨⟨received_inv _ _, rfl, by decide⟩, ⟨received_inv _ _, rfl, by decide⟩, by decide +kernel, by decide +kernel⟩

/-- CommitAllTogetherOrNone: the outcome after each of the three frames (OK, CRC_FAIL, BUSY). -/
theorem test_witness_CommitAllTogetherOrNone :
    (after (exec (.push 0xD4) (received goodBytes 6))).res = 1 ∧
    (after (exec (.push 0xD5) (received goodBytes 6))).res = 3 ∧
    (after (exec (.push 0x67) (received busyBytes 6))).res = 2 := by decide +kernel

/-- AbortRecordsReadFail: ABORT answers a next state. -/
theorem test_witness_AbortRecordsReadFail : ∃ t, exec .abort State.reset = .next t := ⟨_, rfl⟩

/-- ReadReturnsTheRegister: a register address, illegal READ words, VALID = 0 with the invariant, and a
state with RAW_T = 524288. -/
theorem test_witness_ReadReturnsTheRegister :
    (0xE : RegAddr) ≠ 0xF ∧
    ((0x4F00 : Cmd).extractLsb' 12 4 = 0x4 ∧ (0x4F00 : Cmd).extractLsb' 8 4 = 0xF) ∧
    ((0x4001 : Cmd).extractLsb' 12 4 = 0x4 ∧ (0x4001 : Cmd).extractLsb' 0 8 ≠ 0) ∧
    ((received goodBytes 0).Inv ∧ (received goodBytes 0).valid = false) ∧
    { State.reset with rawT := 0x80000 }.rawT = 0x80000 :=
  ⟨by decide, by decide, by decide, ⟨received_inv _ _, rfl⟩, rfl⟩

/-- ReadingDisturbsNothing: a sequence of NOPs and READs. -/
theorem test_witness_ReadingDisturbsNothing :
    ∀ i ∈ [Instr.nop, .read 0xE], i = .nop ∨ ∃ a : RegAddr, a ≠ 0xF ∧ i = .read a := by
  intro i hi
  obtain rfl | rfl : i = .nop ∨ i = .read 0xE := by simpa using hi
  · exact .inl rfl
  · exact .inr ⟨0xE, by decide, rfl⟩

/-- StreamOfPushesIsAStreamOfFrames: CNT = 0 and ACC = 0xFF. -/
theorem test_witness_StreamOfPushes : State.reset.cnt = 0 ∧ State.reset.acc = 0xFF := by decide

/-- FrameCPassesTheCrcCheck: a busy status byte and one that is not. -/
theorem test_witness_FrameCPassesTheCrcCheck :
    busyBytes[0].getLsbD 7 = true ∧ goodBytes[0].getLsbD 7 = false := by decide

/-- AttemptsMapToOutcomes: a busy frame, a frame with a wrong CRC, a good frame. -/
theorem test_witness_AttemptsMapToOutcomes :
    (busyBytes.push 0x67)[0].getLsbD 7 = true ∧
    ((goodBytes.push 0xD5)[0].getLsbD 7 = false ∧ frameCrc (goodBytes.push 0xD5) ≠ (goodBytes.push 0xD5)[6]) ∧
    ((goodBytes.push 0xD4)[0].getLsbD 7 = false ∧ frameCrc (goodBytes.push 0xD4) = (goodBytes.push 0xD4)[6]) := by
  decide +kernel

/-- OnlyTheNamedCommandsWriteAnElement: a change of each element by a command that may change it. -/
theorem test_witness_OnlyTheNamedCommands :
    (after (exec .start (received goodBytes 2))).cnt ≠ (received goodBytes 2).cnt ∧
    (after (exec (.push 0xFF) (received goodBytes 2))).rx ≠ (received goodBytes 2).rx ∧
    (after (exec (.push 0xD4) (received goodBytes 6))).frame ≠ (received goodBytes 6).frame ∧
    (after (exec .abort State.reset)).res ≠ State.reset.res ∧
    (after (exec (.push 0xD4) (received goodBytes 6))).valid ≠ (received goodBytes 6).valid ∧
    (after (exec (.read 0xF) State.reset)).ill ≠ State.reset.ill ∧
    (after (exec (.read 0x7) State.reset)).rdata ≠ State.reset.rdata := by decide +kernel

/-- ValidFromFirstCommitUntilReset, IllIsStickyUntilReset, NoneOnlyUntilTheFirstOutcome: edges that are and
are not a reset, VALID before and after the commit, the commit's own conditions, and a reachable state before
the first commit. -/
theorem test_witness_edges :
    (⟨true, true, 0x20D4⟩ : Edge).rst = true ∧ (commandEdge 0x20D4).rst = false ∧
    { State.reset with valid := true }.valid = true ∧ (received goodBytes 6).valid = false ∧
    (after (clockEdge (commandEdge 0x20D4) (received goodBytes 6))).valid = true ∧
    (after (clockEdge (commandEdge 0x0000) State.reset)).res = 0 ∧
    (after (clockEdge (commandEdge 0x5000) State.reset)).ill = true ∧
    (received goodBytes 6).cnt.val = 6 ∧ (commandEdge 0x20D4).cmdValid = true ∧
    decode (commandEdge 0x20D4).cmd = .legal (.push 0xD4) ∧ (received goodBytes 6).rx[0].getLsbD 7 = false ∧
    (received goodBytes 6).acc = 0xD4 ∧
    (after (clockEdge (commandEdge 0x20D4) (received goodBytes 6))).res = 1 := by decide +kernel

/-- ValidFromFirstCommitUntilReset: a reachable state with VALID = 0. -/
theorem test_witness_no_reading_yet : Reachable State.reset ∧ State.reset.valid = false := ⟨.reset [], rfl⟩

/-- UnwrittenReceiveBytesAreUnobservable: two different states that differ only in RX[2..5] with CNT = 2. -/
theorem test_witness_UnwrittenReceiveBytes :
    SameButDeadRx (received goodBytes 2) { received goodBytes 2 with rx := #v[0x18, 0x80, 1, 2, 3, 4] } ∧
    received goodBytes 2 ≠ { received goodBytes 2 with rx := #v[0x18, 0x80, 1, 2, 3, 4] } := by
  refine ⟨⟨rfl, fun i h hi => ?_⟩, fun h => ?_⟩
  · have : i < 2 := hi
    interval_cases i <;> rfl
  · exact absurd (congrArg State.rx h) (by decide)

/-- EveryStepKeepsTheInvariant: a step from a state that has it. -/
theorem test_witness_EveryStepKeepsTheInvariant :
    (received goodBytes 6).Inv ∧ ∃ t, step (received goodBytes 6) = .next t := ⟨received_inv _ _, _, rfl⟩

/-- The state after `k` edges. -/
def afterEdges : Nat → State → State
  | 0, s => s
  | k + 1, s => afterEdges k (after (step s))

/-- The reset state with the seven PUSHes of a frame waiting. -/
def pushesWaiting (f : Frame) : State :=
  { State.reset with edges := f.toList.map fun b => commandEdge (encode (.push b)) }

/-- A state reached by the edges of a run from reset is reachable, as long as every step answers one. -/
theorem reachable_afterEdges {s : State} (h : Reachable s) (k : Nat)
    (hk : ∀ j < k, step (afterEdges j s) = .next (after (step (afterEdges j s)))) :
    Reachable (afterEdges k s) := by
  induction k generalizing s with
  | zero => exact h
  | succ k ih => exact ih (.step h (hk 0 (Nat.succ_pos k))) fun j hj => hk (j + 1) (Nat.succ_lt_succ hj)

/-- The statements about reachable states: reset, and states with outcome OK, BUSY and CRC_FAIL. -/
theorem test_witness_reachable :
    (∃ s, Reachable s ∧ s.cnt = 0 ∧ s.res = 0 ∧ s.valid = false) ∧
    (∃ s, Reachable s ∧ s.res = 1) ∧ (∃ s, Reachable s ∧ s.res = 2) ∧ ∃ s, Reachable s ∧ s.res = 3 := by
  have go (f : Frame) (h : ∀ j < 7, step (afterEdges j (pushesWaiting f)) =
      .next (after (step (afterEdges j (pushesWaiting f))))) : Reachable (afterEdges 7 (pushesWaiting f)) :=
    reachable_afterEdges (.reset _) 7 h
  refine ⟨⟨_, .reset [], rfl, rfl, rfl⟩, ⟨_, go (goodBytes.push 0xD4) ?_, by decide +kernel⟩,
    ⟨_, go (busyBytes.push 0x67) ?_, by decide +kernel⟩,
    ⟨_, go (goodBytes.push 0xD5) ?_, by decide +kernel⟩⟩ <;>
  · intro j hj
    interval_cases j <;> rfl

/-- ResetEdgeGivesTheResetValues: a waiting reset edge that carries a command, in a state that is not the
reset state. -/
theorem test_witness_ResetEdge :
    { received goodBytes 3 with edges := [⟨true, true, 0x20FF⟩] }.edges = [⟨true, true, 0x20FF⟩] ∧
    (⟨true, true, 0x20FF⟩ : Edge).rst = true := by decide

/-- CrcAndFrameRegisterFields: a state with the invariant. -/
theorem test_witness_CrcAndFrameRegisterFields : (received goodBytes 6).Inv := received_inv _ _

/-- The scaler statements: a tie, negative and non-negative values, RANGE at its lowest raw values. -/
theorem test_witness_scaler :
    (humQ 0x08000).natAbs * 100 % 2 ^ 20 = 2 ^ 19 ∧ (centi (tcQ 0)).neg = true ∧
    (centi (tcQ 0x40000)).neg = false ∧ (centi (tfQ 0)).neg = true ∧ (centi (tfQ 0x80000)).neg = false ∧
    (digits (humQ 0xFFFCC)).range = true ∧ tcQ 0 < 0 ∧ tfQ 0 < 0 := by decide

end Sys2Proof.Machine
end

/-! ### Completion of commands and edges, and the receive-buffer bytes no command can see (R25) -/

namespace Sys2Proof.Machine

/-! #### Every command and every edge answers a next state (R227) -/

/-- Every command completes (R227). -/
theorem exec_answers (i : Instr) (s : State) : ∃ t, exec i s = .next t := by
  cases i with
  | nop => exact ⟨_, rfl⟩
  | start => exact ⟨_, rfl⟩
  | abort => exact ⟨_, rfl⟩
  | push b =>
    by_cases h : s.cnt.val < 6
    · exact ⟨_, execPush_of_lt b s h⟩
    · exact ⟨_, execPush_of_eq b s (by omega)⟩
  | read a =>
    cases h : regValue s a with
    | some v => exact ⟨_, execRead_of_some h⟩
    | none => exact ⟨_, execRead_of_none h⟩

/-- Every rising edge completes (R45, R227). -/
theorem clockEdge_answers (e : Edge) (s : State) : ∃ t, clockEdge e s = .next t := by
  unfold clockEdge runWord
  split
  · exact ⟨_, rfl⟩
  · split
    · cases decode e.cmd with
      | legal i => exact exec_answers i s
      | illegal _ => exact ⟨_, rfl⟩
    · exact ⟨_, rfl⟩

/-! #### Receive-buffer bytes not yet written (R25) -/

/-- The registers do not read RX (R25, R33). -/
theorem regValue_withRx (s : State) (r : Vector Byte 6) (a : RegAddr) :
    regValue { s with rx := r } a = regValue s a :=
  regValue_congr a rfl rfl rfl rfl rfl rfl rfl rfl rfl

/-- A state whose RX is replaced by one that agrees below CNT. -/
theorem sameButDeadRx_withRx {s : State} {r : Vector Byte 6}
    (h : ∀ (i : Nat) (hi : i < 6), i < s.cnt.val → s.rx[i] = r[i]) :
    SameButDeadRx s { s with rx := r } := ⟨rfl, h⟩

theorem SameButDeadRx.refl (s : State) : SameButDeadRx s s := ⟨rfl, fun _ _ _ => rfl⟩

/-- With CNT = 0 no byte of RX is alive (R25). -/
theorem sameButDeadRx_withRx_of_cnt_zero {s : State} (h : s.cnt = 0) (r : Vector Byte 6) :
    SameButDeadRx s { s with rx := r } :=
  sameButDeadRx_withRx fun i _ hi => by simp [h] at hi

/-- With CNT = 6 every byte of RX is alive, so the states are equal (R25). -/
theorem SameButDeadRx.eq_of_cnt_six {s t : State} (h : SameButDeadRx s t) (h6 : s.cnt.val = 6) : s = t := by
  obtain ⟨ht, hrx⟩ := h
  have : s.rx = t.rx := Vector.ext fun i hi => hrx i hi (h6 ▸ hi)
  rw [ht, ← this]

/-- The ports and the registers are views of what the two states share (R25, R33, R44). -/
theorem SameButDeadRx.same_view {s t : State} (h : SameButDeadRx s t) :
    rdataPort s = rdataPort t ∧ illPort s = illPort t ∧ ∀ a, regValue s a = regValue t a := by
  rw [h.1]
  exact ⟨rfl, rfl, fun a => (regValue_withRx s t.rx a).symm⟩

/-- An accumulating PUSH writes the first dead byte and makes it alive (R25, R175). -/
theorem SameButDeadRx.accumulate {s t : State} (h : SameButDeadRx s t) (b : Byte) (hc : s.cnt.val < 6) :
    SameButDeadRx (accumulate b s) (accumulate b t) := by
  obtain ⟨ht, hrx⟩ := h
  have hcnt : t.cnt = s.cnt := by rw [ht]
  refine ⟨by rw [ht]; rfl, fun i hi hlt => ?_⟩
  rw [accumulate_cnt_val b s hc] at hlt
  simp only [accumulate_rx, hcnt, Vector.getElem_setIfInBounds]
  by_cases hci : s.cnt.val = i
  · simp [hci]
  · simpa [hci] using hrx i hi (by omega)

/-- No command reads a dead byte (R25). -/
theorem SameButDeadRx.exec {s t : State} (h : SameButDeadRx s t) (i : Instr) :
    ∃ s' t', exec i s = .next s' ∧ exec i t = .next t' ∧ SameButDeadRx s' t' := by
  have hcnt : t.cnt = s.cnt := by rw [h.1]
  cases i with
  | nop => exact ⟨s, t, rfl, rfl, h⟩
  | start => exact ⟨_, _, rfl, rfl, by rw [h.1]; exact sameButDeadRx_withRx_of_cnt_zero rfl t.rx⟩
  | abort => exact ⟨_, _, rfl, rfl, by rw [h.1]; exact sameButDeadRx_withRx_of_cnt_zero rfl t.rx⟩
  | push b =>
    by_cases hc : s.cnt.val < 6
    · exact ⟨_, _, execPush_of_lt b s hc, execPush_of_lt b t (hcnt ▸ hc), h.accumulate b hc⟩
    · have h6 : s.cnt.val = 6 := by omega
      obtain rfl := h.eq_of_cnt_six h6
      exact ⟨_, _, execPush_of_eq b s h6, execPush_of_eq b s h6, .refl _⟩
  | read a =>
    have hreg := h.same_view.2.2 a
    cases hr : regValue s a with
    | some v =>
      refine ⟨_, _, execRead_of_some hr, execRead_of_some (hreg ▸ hr), ?_⟩
      exact ⟨by rw [h.1], h.2⟩
    | none =>
      refine ⟨_, _, execRead_of_none hr, execRead_of_none (hreg ▸ hr), ?_⟩
      exact ⟨by rw [h.1]; rfl, h.2⟩

/-- No rising edge reads a dead byte (R25); a reset edge does not look at RX at all (R250). -/
theorem SameButDeadRx.clockEdge {s t : State} (h : SameButDeadRx s t) (e : Edge) :
    ∃ s' t', clockEdge e s = .next s' ∧ clockEdge e t = .next t' ∧ SameButDeadRx s' t' := by
  unfold Machine.clockEdge runWord
  split
  · exact ⟨_, _, rfl, rfl, by rw [h.1]; exact .refl _⟩
  · split
    · cases decode e.cmd with
      | legal i => exact h.exec i
      | illegal _ => exact ⟨_, _, rfl, rfl, by rw [h.1]; rfl, h.2⟩
    · exact ⟨s, t, rfl, rfl, h⟩

/-- No step reads a dead byte (R25). -/
theorem SameButDeadRx.step {s t : State} (h : SameButDeadRx s t) :
    ∃ s' t', step s = .next s' ∧ step t = .next t' ∧ SameButDeadRx s' t' := by
  have hedges : t.edges = s.edges := by rw [h.1]
  unfold Machine.step
  rw [hedges]
  cases s.edges with
  | nil => exact ⟨s, t, rfl, rfl, h⟩
  | cons e _ =>
    have hdrop : SameButDeadRx (dropEdge s) (dropEdge t) := ⟨by rw [h.1]; rfl, h.2⟩
    exact hdrop.clockEdge e

/-- Settles O29: the relation is kept by every step, and related states show the same. -/
theorem unwrittenReceiveBytesAreUnobservable : Obligations.UnwrittenReceiveBytesAreUnobservable := by
  unfold Obligations.UnwrittenReceiveBytesAreUnobservable
  intro s t h
  obtain ⟨s', t', hs, ht, hst⟩ := h.step
  exact ⟨s', t', hs, ht, hst, hst.same_view⟩

end Sys2Proof.Machine

/-! ### The invariant along a run (R24, R27 to R31) -/

namespace Sys2Proof.Machine

/-! #### A completing PUSH, field by field -/

@[simp] theorem busyFlag_receivedFrame (b : Byte) (s : State) :
    busyFlag (receivedFrame b s) = s.rx[0].getLsbD 7 := by
  rw [busyFlag, receivedFrame, Vector.getElem_push_lt (by decide)]

theorem crcMatch_iff (f : Frame) : crcMatch f = true ↔ frameCrc f = f[6] := decide_eq_true_iff

@[simp] theorem complete_frame (b : Byte) (s : State) : (complete b s).frame = receivedFrame b s := by
  obtain ⟨_, h⟩ | ⟨_, _, h⟩ | ⟨_, _, h⟩ := complete_cases b s <;> rw [h] <;> rfl

@[simp] theorem complete_ill (b : Byte) (s : State) : (complete b s).ill = s.ill := by
  obtain ⟨_, h⟩ | ⟨_, _, h⟩ | ⟨_, _, h⟩ := complete_cases b s <;> rw [h] <;> rfl

/-- The outcome is OK exactly if byte 0 is not busy and the running CRC is the seventh byte (R177). -/
theorem complete_res_ok_iff (b : Byte) (s : State) :
    (complete b s).res = resOk ↔ s.rx[0].getLsbD 7 = false ∧ s.acc = b := by
  rw [← busyFlag_receivedFrame b s]
  obtain ⟨hb, h⟩ | ⟨hb, hc, h⟩ | ⟨hb, hc, h⟩ := complete_cases b s <;> rw [h, hb]
  · exact iff_of_false (by simp [resOk, resBusy]) (by simp)
  · exact iff_of_false (by simp [resOk, resCrcFail]) (by simp [hc])
  · exact iff_of_true rfl ⟨rfl, hc⟩

/-- VALID after a completing PUSH: as before, or set by the commit of an OK frame (R178, R179). -/
theorem complete_valid_iff (b : Byte) (s : State) :
    (complete b s).valid = true ↔ s.valid = true ∨ (complete b s).res = resOk := by
  obtain ⟨_, h⟩ | ⟨_, _, h⟩ | ⟨_, _, h⟩ := complete_cases b s <;>
    simp [h, resOk, resBusy, resCrcFail]

/-- A command is a completing PUSH, or it leaves the recorded frame and the reading (R26, R29, R31). -/
theorem exec_completes_or_keeps {i : Instr} {s t : State} (h : exec i s = .next t) :
    (∃ b, i = .push b ∧ s.cnt.val = 6 ∧ t = complete b s) ∨
    ((∀ b, i = .push b → s.cnt.val < 6) ∧ t.frame = s.frame ∧ t.crcc = s.crcc ∧ t.valid = s.valid ∧
      t.rawH = s.rawH ∧ t.rawT = s.rawT) := by
  obtain ⟨rfl, rfl⟩ | ⟨rfl, rfl⟩ | ⟨b, rfl, hc, rfl⟩ | ⟨b, rfl, h6, rfl⟩ | ⟨rfl, rfl⟩ |
    ⟨a, v, rfl, _, rfl⟩ | ⟨a, rfl, _, rfl⟩ := exec_cases h
  case inr.inr.inr.inl => exact .inl ⟨b, rfl, h6, rfl⟩
  case inr.inr.inl => exact .inr ⟨fun _ _ => hc, rfl, rfl, rfl, rfl, rfl⟩
  all_goals exact .inr ⟨fun _ h => (nomatch h), rfl, rfl, rfl, rfl, rfl⟩

/-- Settles O25: of the seven forms of a command only the completing PUSH touches FRAME. -/
theorem frameIsReplacedWholeByTheSeventhPush : Obligations.FrameIsReplacedWholeByTheSeventhPush := by
  unfold Obligations.FrameIsReplacedWholeByTheSeventhPush
  intro i s
  obtain ⟨t, ht⟩ := exec_answers i s
  refine ⟨t, ht, ?_⟩
  obtain ⟨b, hi, h6, rfl⟩ | ⟨hpush, hframe, _⟩ := exec_completes_or_keeps ht
  · exact .inl ⟨b, hi, h6, complete_frame b s⟩
  · exact .inr ⟨hpush, hframe⟩

/-! #### ILL (R30) -/

theorem isLegal_of_legal {w : Cmd} {i : Instr} (h : decode w = .legal i) : isLegal w = true := by
  simp [isLegal, h]

theorem isLegal_of_illegal {w : Cmd} {why : Illegal} (h : decode w = .illegal why) :
    isLegal w = false := by
  simp [isLegal, h]

/-- The decoder answers well-formed commands only (R76, R78). -/
theorem decode_legal_wf {w : Cmd} {i : Instr} (h : decode w = .legal i) : i.wf = true := by
  obtain ⟨rfl, _⟩ | ⟨rfl, _⟩ | ⟨rfl, _⟩ | ⟨rfl, _⟩ | ⟨rfl, _, _, ha⟩ := decode_legal_cases h
  case inr.inr.inr.inr => exact ha
  all_goals rfl

/-- A well-formed command leaves ILL (R226). -/
theorem exec_ill_of_wf {i : Instr} {s t : State} (hwf : i.wf = true) (h : exec i s = .next t) :
    t.ill = s.ill := by
  obtain ⟨_, rfl⟩ | ⟨_, rfl⟩ | ⟨b, _, _, rfl⟩ | ⟨b, _, _, rfl⟩ | ⟨_, rfl⟩ |
    ⟨a, v, _, _, rfl⟩ | ⟨a, rfl, hnone, rfl⟩ := exec_cases h
  case inr.inr.inr.inl => exact complete_ill b s
  case inr.inr.inr.inr.inr.inr =>
    have hsome := regValue_isSome s a
    rw [hnone, show readableAddr a = true from hwf] at hsome
    cases hsome
  all_goals rfl

/-- Settles O26: one case for each thing an edge can do. -/
theorem illIsStickyUntilReset : Obligations.IllIsStickyUntilReset := by
  unfold Obligations.IllIsStickyUntilReset
  intro e s
  obtain ⟨t, ht⟩ := clockEdge_answers e s
  refine ⟨t, ht, rfl, ?_⟩
  obtain ⟨hr, rfl⟩ | ⟨hr, hv, rfl⟩ | ⟨i, hr, hv, hd, hi⟩ | ⟨why, hr, hv, hd, rfl⟩ := clockEdge_cases ht
  · simp [hr, State.reset]
  · simp [hr, hv]
  · simp [hr, hv, isLegal_of_legal hd, exec_ill_of_wf (decode_legal_wf hd) hi]
  · simp [hr, hv, isLegal_of_illegal hd]

/-! #### The invariant is kept by every operation -/

/-- Neither ILL, RDATA nor the model's own fields take part in the invariant. -/
theorem State.Inv.withUnobserved {s : State} (h : s.Inv) (ill : Bool) (rdata : Word) (edges : List Edge)
    (freeIdx : Nat) :
    State.Inv { s with ill := ill, rdata := rdata, edges := edges, freeIdx := freeIdx } where
  running := h.running
  recorded := h.recorded
  resCode := h.resCode
  noneYet := h.noneYet
  okCommitted := h.okCommitted
  busyRecorded := h.busyRecorded
  failRecorded := h.failRecorded
  noReading := h.noReading

theorem State.Inv.raiseIll {s : State} (h : s.Inv) : (raiseIll s).Inv :=
  h.withUnobserved true s.rdata s.edges s.freeIdx

theorem State.Inv.dropEdge {s : State} (h : s.Inv) : (dropEdge s).Inv :=
  h.withUnobserved s.ill s.rdata s.edges.tail s.freeIdx

/-- The frame being assembled can be replaced by any other whose ACC is its CRC (R24). -/
theorem State.Inv.withReceived {s : State} (h : s.Inv) {cnt : Fin 7} {acc : Byte} {rx : Vector Byte 6}
    (hacc : acc = crc8 (rx.toList.take cnt.val)) :
    State.Inv { s with cnt := cnt, acc := acc, rx := rx } where
  running := hacc
  recorded := h.recorded
  resCode := h.resCode
  noneYet := h.noneYet
  okCommitted := h.okCommitted
  busyRecorded := h.busyRecorded
  failRecorded := h.failRecorded
  noReading := h.noReading

/-- With CNT = 0 nothing has been received and ACC is the seed (R102). -/
theorem State.Inv.rearm {s : State} (h : s.Inv) : (rearm s).Inv :=
  h.withReceived (cnt := 0) (acc := crcInit) (rx := s.rx) rfl

theorem State.Inv.accumulate {s : State} (h : s.Inv) (b : Byte) (hc : s.cnt.val < 6) :
    (accumulate b s).Inv := by
  refine h.withReceived ?_
  have hcnt := accumulate_cnt_val b s hc
  have hrx := accumulate_rx_set b s hc
  simp only [accumulate_cnt, accumulate_rx] at hcnt hrx
  rw [hcnt, hrx, take_set_rx s.rx s.cnt.val b hc, crc8_append_one, h.running]

/-- READ_FAIL says nothing of the recorded frame (R220). -/
theorem State.Inv.readFail {s : State} (h : s.Inv) : (setOutcome resReadFail s).Inv where
  running := h.running
  recorded := h.recorded
  resCode := show resReadFail.toNat ≤ 4 by decide
  noneYet hres := absurd hres (show resReadFail ≠ resNone by decide)
  okCommitted hres := absurd hres (show resReadFail ≠ resOk by decide)
  busyRecorded hres := absurd hres (show resReadFail ≠ resBusy by decide)
  failRecorded hres := absurd hres (show resReadFail ≠ resCrcFail by decide)
  noReading := h.noReading

/-- The outcome of a frame: busy first, then the CRC (R177, R228). -/
theorem frameOutcome_cases (f : Frame) :
    (busyFlag f = true ∧ frameOutcome f = resBusy) ∨
    (busyFlag f = false ∧ frameCrc f ≠ f[6] ∧ frameOutcome f = resCrcFail) ∨
    (busyFlag f = false ∧ frameCrc f = f[6] ∧ frameOutcome f = resOk) := by
  cases hb : busyFlag f
  · by_cases hc : frameCrc f = f[6] <;> simp [hb, hc, frameOutcome, crcMatch]
  · simp [hb, frameOutcome]

theorem goodFrame_iff (f : Frame) : goodFrame f = true ↔ busyFlag f = false ∧ frameCrc f = f[6] := by
  simp [goodFrame, crcMatch]

/-- What each code says of the frame it is the outcome of (R220, R222 to R224). -/
theorem frameOutcome_meaning (f : Frame) :
    (frameOutcome f).toNat ≤ 4 ∧ frameOutcome f ≠ resNone ∧
    (frameOutcome f = resOk → busyFlag f = false ∧ frameCrc f = f[6]) ∧
    (frameOutcome f = resBusy → busyFlag f = true) ∧
    (frameOutcome f = resCrcFail → busyFlag f = false ∧ frameCrc f ≠ f[6]) := by
  obtain ⟨hb, h⟩ | ⟨hb, hc, h⟩ | ⟨hb, hc, h⟩ := frameOutcome_cases f
  · simp [h, hb, resNone, resOk, resBusy, resCrcFail]
  · simp [h, hb, hc, resNone, resOk, resBusy, resCrcFail]
  · simp [h, hb, hc, resNone, resOk, resBusy, resCrcFail]

/-- A whole frame gives the invariant's clauses about the frame, and keeps the one about the reading. -/
theorem State.Inv.acceptFrame {s : State} (h : s.Inv) (f : Frame) : (acceptFrame s f).Inv := by
  obtain ⟨hcode, hnone, hok, hbusy, hfail⟩ := frameOutcome_meaning f
  refine ⟨rfl, rfl, hcode, fun hres => absurd hres hnone, fun hres => ?_, hbusy, hfail, fun hv => ?_⟩
  · obtain ⟨hb, hc⟩ := hok hres
    have hg := (goodFrame_iff f).2 ⟨hb, hc⟩
    exact ⟨by simp [Machine.acceptFrame, hg], hb, hc, if_pos hg, if_pos hg⟩
  · obtain ⟨hv, hg⟩ : s.valid = false ∧ goodFrame f = false := by simpa [Machine.acceptFrame] using hv
    simpa [Machine.acceptFrame, hg] using h.noReading hv

/-- A completing PUSH accepts the frame received (R24, R176 to R179). -/
theorem State.Inv.complete {s : State} (h : s.Inv) (b : Byte) (h6 : s.cnt.val = 6) :
    (complete b s).Inv := by
  have hacc : s.acc = frameCrc (receivedFrame b s) := by
    rw [frameCrc_receivedFrame, h.running, h6, List.take_of_length_le (by simp)]
  rw [complete_eq_acceptFrame b s hacc]
  exact (h.acceptFrame (receivedFrame b s)).withReceived (cnt := 0) (acc := crcInit) (rx := s.rx) rfl

/-- The reset state has the invariant: 0x6A is the CRC of six zero bytes (R250). -/
theorem State.reset_inv : State.reset.Inv where
  running := rfl
  recorded := show (0x6A : Byte) = frameCrc State.reset.frame by decide +kernel
  resCode := Nat.zero_le 4
  noneYet _ := ⟨rfl, rfl⟩
  okCommitted hres := absurd hres (show resNone ≠ resOk by decide)
  busyRecorded hres := absurd hres (show resNone ≠ resBusy by decide)
  failRecorded hres := absurd hres (show resNone ≠ resCrcFail by decide)
  noReading _ := ⟨rfl, rfl⟩

theorem resetEdge_inv (s : State) : (resetEdge s).Inv :=
  (State.reset_inv.withReceived (cnt := 0) (acc := crcInit) (rx := freeRx s.freeIdx) rfl).withUnobserved
    false 0x00000000 s.edges (s.freeIdx + 6)

/-- Every command keeps the invariant. -/
theorem State.Inv.exec {i : Instr} {s t : State} (h : s.Inv) (hexec : exec i s = .next t) : t.Inv := by
  obtain ⟨_, rfl⟩ | ⟨_, rfl⟩ | ⟨b, _, hc, rfl⟩ | ⟨b, _, h6, rfl⟩ | ⟨_, rfl⟩ |
    ⟨a, v, _, _, rfl⟩ | ⟨a, _, _, rfl⟩ := exec_cases hexec
  · exact h
  · exact h.rearm
  · exact h.accumulate b hc
  · exact h.complete b h6
  · exact h.rearm.readFail
  · exact h.withUnobserved s.ill v s.edges s.freeIdx
  · exact h.raiseIll

/-- Every rising edge keeps the invariant. -/
theorem State.Inv.clockEdge {e : Edge} {s t : State} (h : s.Inv) (he : clockEdge e s = .next t) :
    t.Inv := by
  obtain ⟨_, rfl⟩ | ⟨_, _, rfl⟩ | ⟨i, _, _, _, hi⟩ | ⟨why, _, _, _, rfl⟩ := clockEdge_cases he
  · exact resetEdge_inv s
  · exact h
  · exact h.exec hi
  · exact h.raiseIll

/-- Every step keeps the invariant. -/
theorem State.Inv.step {s t : State} (h : s.Inv) (hs : step s = .next t) : t.Inv := by
  obtain ⟨_, rfl⟩ | ⟨e, rest, _, he⟩ := step_cases hs
  · exact h
  · exact h.dropEdge.clockEdge he

/-- Every reachable state has the invariant (R24, R27 to R29, R31, R220, R221). -/
theorem Reachable.inv {s : State} (h : Reachable s) : s.Inv := by
  induction h with
  | reset es => exact State.reset_inv.withUnobserved false 0x00000000 es 0
  | step _ hs ih => exact ih.step hs

/-! #### What the invariant says of reachable states -/

/-- Settles O32: the invariant's clause, and no byte is received with CNT = 0. -/
theorem runningCrcInReachableStates : Obligations.RunningCrcInReachableStates := by
  unfold Obligations.RunningCrcInReachableStates
  intro s h
  refine ⟨h.inv.running, fun h0 => ?_⟩
  rw [h.inv.running, h0]
  rfl

/-- The CRC span of a frame, byte by byte (R103). -/
theorem frameCrc_eq_bytes (f : Frame) : frameCrc f = crc8 [f[0], f[1], f[2], f[3], f[4], f[5]] := by
  rw [frameCrc, frame_toList]
  rfl

/-- Settles O33: the invariant's clause, with the span of the CRC spelled out. -/
theorem recordedCrcInReachableStates : Obligations.RecordedCrcInReachableStates := by
  unfold Obligations.RecordedCrcInReachableStates
  intro s h
  rw [h.inv.recorded, frameCrc_eq_bytes]

/-- Settles O34: the invariant's clauses for the codes 0 to 3, CRCC being the frame's own CRC. -/
theorem outcomeCodeInReachableStates : Obligations.OutcomeCodeInReachableStates := by
  unfold Obligations.OutcomeCodeInReachableStates
  intro s h
  obtain ⟨_, hrec, hcode, hnone, hok, hbusy, hfail, _⟩ := h.inv
  rw [hrec] at hok hfail
  refine ⟨hcode, fun h0 => (hnone h0).1, fun h1 => ?_, hbusy, hfail⟩
  obtain ⟨hv, hb, hc, hh, ht⟩ := hok h1
  exact ⟨hb, hc, hv, hh, ht⟩

/-! #### VALID (R29) -/

/-- VALID after a command: as before, or set by the completing PUSH of an OK frame (R178, R179). -/
theorem exec_sets_valid {i : Instr} {s t : State} (h : exec i s = .next t) (hs : s.valid = false)
    (ht : t.valid = true) : s.cnt.val = 6 ∧ t.res = resOk ∧ ∃ b, i = .push b := by
  obtain ⟨b, hi, h6, rfl⟩ | ⟨_, _, _, hv, _⟩ := exec_completes_or_keeps h
  · rw [complete_valid_iff, hs] at ht
    exact ⟨h6, by simpa using ht, b, hi⟩
  · simp [hv, hs] at ht

/-- No command clears VALID (R29). -/
theorem exec_keeps_valid {i : Instr} {s t : State} (h : exec i s = .next t) (hs : s.valid = true) :
    t.valid = true := by
  obtain ⟨b, _, _, rfl⟩ | ⟨_, _, _, hv, _⟩ := exec_completes_or_keeps h
  · exact (complete_valid_iff b s).2 (.inl hs)
  · rw [hv, hs]

/-- The registers 0x4 to 0xE of two zero raw fields (R37 to R40). -/
theorem readings_of_zero_raw {s : State} (hh : s.rawH = 0) (ht : s.rawT = 0) :
    (List.range' 4 11).map (fun a => regValue s (BitVec.ofNat 4 a)) =
      [some 0x00000000, some 0x00000000, some 0x00000000, some 0xFCE00000, some 0xFC600000,
       some 0x00000000, some 0x80001388, some 0x800016A8, some 0x00000000, some 0x80005000,
       some 0x80005800] := by
  have hview : (List.range' 4 11).map (fun a => regValue s (BitVec.ofNat 4 a)) =
      [some (rawReg s.rawH), some (rawReg s.rawT), some (qReg (humQ s.rawH)), some (qReg (tcQ s.rawT)),
       some (qReg (tfQ s.rawT)), some (centiReg (humQ s.rawH)), some (centiReg (tcQ s.rawT)),
       some (centiReg (tfQ s.rawT)), some (digitReg (humQ s.rawH)), some (digitReg (tcQ s.rawT)),
       some (digitReg (tfQ s.rawT))] := rfl
  rw [hview, hh, ht]
  decide

/-- Settles O27: what an edge does to VALID case by case, and the invariant with VALID = 0. -/
theorem validFromFirstCommitUntilReset : Obligations.ValidFromFirstCommitUntilReset := by
  unfold Obligations.ValidFromFirstCommitUntilReset
  refine ⟨fun e s => ?_, fun s h hv => ?_⟩
  · obtain ⟨t, ht⟩ := clockEdge_answers e s
    refine ⟨t, ht, ?_⟩
    obtain ⟨hr, rfl⟩ | ⟨hr, hv, rfl⟩ | ⟨i, hr, hv, hd, hi⟩ | ⟨why, hr, hv, hd, rfl⟩ := clockEdge_cases ht
    · simp [hr, State.reset]
    · simp +contextual [hr, hv]
    · refine ⟨by simp [hr], fun _ => exec_keeps_valid hi, fun _ hs hset => ?_, fun _ _ b hb h6 => ?_⟩
      · obtain ⟨h6, hok, b, rfl⟩ := exec_sets_valid hi hs hset
        exact ⟨h6, hok, hv, b, hd⟩
      · obtain rfl : i = .push b := Decoded.legal.inj (hd.symm.trans hb)
        obtain rfl : complete b s = t := by
          simpa [exec, execPush_of_eq b s h6] using hi
        exact ⟨fun hbusy hacc => (complete_res_ok_iff b s).2 ⟨hbusy, hacc⟩,
          fun hok => (complete_valid_iff b s).2 (.inr hok)⟩
    · simp +contextual [hr, hd]
  · obtain ⟨hh, ht⟩ := h.inv.noReading hv
    exact ⟨hh, ht, readings_of_zero_raw hh ht⟩

end Sys2Proof.Machine

/-! ### The register map (R34 to R43) -/

namespace Sys2Proof.Machine

/-! #### The fields of a register put together from its parts -/

/-- A number that fits its field is read back from it. -/
theorem toNat_ofNat_of_lt {w n : Nat} (h : n < 2 ^ w) : (BitVec.ofNat w n).toNat = n := by
  rw [BitVec.toNat_ofNat, Nat.mod_eq_of_lt h]

/-- The fields of STATUS (R34). -/
theorem statusReg_fields (s : State) :
    (statusReg s).extractLsb' 0 3 = s.res ∧ (statusReg s).getLsbD 3 = s.valid ∧
    (statusReg s).extractLsb' 4 3 = BitVec.ofNat 3 s.cnt.val ∧ (statusReg s).getLsbD 7 = s.ill ∧
    (statusReg s).getLsbD 8 = busyFlag s.frame ∧ (statusReg s).getLsbD 9 = calFlag s.frame ∧
    (statusReg s).extractLsb' 10 22 = 0 := by
  unfold statusReg
  refine ⟨?_, ?_, ?_, ?_, ?_, ?_, ?_⟩ <;>
    simp (disch := decide) only [BitVec.getLsbD_append, BitVec.extractLsb'_append_eq_of_le,
      BitVec.extractLsb'_append_eq_of_add_le] <;>
    simp

/-- The fields of a centi register (R39). -/
theorem centiReg_fields (q : Int) :
    (centiReg q).extractLsb' 0 16 = BitVec.ofNat 16 (centi q).mag ∧ (centiReg q).extractLsb' 16 15 = 0 ∧
    (centiReg q).getLsbD 31 = (centi q).neg := by
  unfold centiReg
  refine ⟨?_, ?_, ?_⟩ <;>
    simp (disch := decide) only [BitVec.getLsbD_append, BitVec.extractLsb'_append_eq_of_le,
      BitVec.extractLsb'_append_eq_of_add_le] <;>
    simp

/-- The fields of a digit register (R40). -/
theorem digitReg_fields (q : Int) :
    (digitReg q).extractLsb' 0 4 = BitVec.ofNat 4 (digits q).d0 ∧
    (digitReg q).extractLsb' 4 4 = BitVec.ofNat 4 (digits q).d1 ∧
    (digitReg q).extractLsb' 8 4 = BitVec.ofNat 4 (digits q).d2 ∧
    (digitReg q).extractLsb' 12 4 = BitVec.ofNat 4 (digits q).d3 ∧
    (digitReg q).getLsbD 16 = (digits q).range ∧ (digitReg q).extractLsb' 17 14 = 0 ∧
    (digitReg q).getLsbD 31 = (digits q).neg := by
  unfold digitReg
  refine ⟨?_, ?_, ?_, ?_, ?_, ?_, ?_⟩ <;>
    simp (disch := decide) only [BitVec.getLsbD_append, BitVec.extractLsb'_append_eq_of_le,
      BitVec.extractLsb'_append_eq_of_add_le] <;>
    simp

/-- Settles O37: the fields of the register, CNT being small enough for its three bits. -/
theorem statusRegisterFields : Obligations.StatusRegisterFields := by
  unfold Obligations.StatusRegisterFields
  intro s
  obtain ⟨hres, hvalid, hcnt, hill, hbusy, hcal, hzero⟩ := statusReg_fields s
  refine ⟨statusReg s, rfl, hres, hvalid, ?_, hill, hbusy, hcal, hzero⟩
  rw [hcnt, toNat_ofNat_of_lt (by omega)]

/-- Settles O38: the byte lanes of the three registers, and the recorded CRC of the invariant. -/
theorem crcAndFrameRegisterFields : Obligations.CrcAndFrameRegisterFields := by
  unfold Obligations.CrcAndFrameRegisterFields
  refine ⟨fun s => ?_, fun s => ⟨frame0Reg s, rfl, byte_lanes _ _ _ _⟩,
    fun s => ⟨frame1Reg s, rfl, byte_lanes _ _ _ _⟩⟩
  obtain ⟨hcalc, hrecv, hacc, hzero⟩ := byte_lanes 0#8 s.acc s.frame[6] s.crcc
  refine ⟨crcReg s, rfl, hcalc, hrecv, hacc, hzero, fun hinv => ?_⟩
  rw [crcReg, hcalc, hrecv, hinv.recorded, crcMatch_iff]

/-! #### The scaled values and their registers -/

theorem humQ_bounds (h : Raw) : 0 ≤ humQ h ∧ humQ h ≤ 104857500 := by
  have := h.isLt
  unfold humQ
  omega

theorem tcQ_bounds (t : Raw) : -52428800 ≤ tcQ t ∧ tcQ t ≤ 157286200 := by
  have := t.isLt
  unfold tcQ
  omega

theorem tfQ_bounds (t : Raw) : -60817408 ≤ tfQ t ∧ tfQ t ≤ 316669592 := by
  have := t.isLt
  unfold tfQ
  omega

/-- Both scales are linear in the same raw field, so the conversion between them is exact (R43). -/
theorem tfQ_tcQ_identity (t : Raw) : 5 * tfQ t = 9 * tcQ t + 160 * 2 ^ 20 := by
  unfold tfQ tcQ
  omega

/-- A raw field is read back from its register (R37). -/
theorem rawReg_toNat (r : Raw) : (rawReg r).toNat = r.toNat := BitVec.toNat_setWidth_of_le (by decide)

/-- A Q.20 value that fits is read back from its register as a signed number (R11, R38). -/
theorem qReg_toInt {q : Int} (hlo : -2 ^ 31 ≤ q) (hhi : q < 2 ^ 31) : (qReg q).toInt = q :=
  BitVec.toInt_ofInt_eq_self (by decide) hlo hhi

/-- A Q.20 value that is not negative is read back from its register as it stands (R11, R38). -/
theorem qReg_toNat {q : Int} (hlo : 0 ≤ q) (hhi : q < 2 ^ 32) : ((qReg q).toNat : Int) = q := by
  rw [qReg, BitVec.toNat_ofInt]
  omega

/-- A register whose signed value fits 30 bits has bits 31 to 29 all equal (R38). -/
theorem sign_bits_eq {v : Word} (hlo : -2 ^ 29 ≤ v.toInt) (hhi : v.toInt < 2 ^ 29) :
    v.getLsbD 30 = v.getLsbD 31 ∧ v.getLsbD 29 = v.getLsbD 31 := by
  have hlt := v.isLt
  rw [BitVec.toInt_eq_toNat_cond] at hlo hhi
  simp only [BitVec.getLsbD, Nat.testBit_eq_decide_div_mod_eq, decide_eq_decide]
  split at hlo <;> omega

/-- A temperature register holds its value exactly, with room for the sign (R38, R144). -/
theorem qReg_reads_signed {q : Int} (hlo : -2 ^ 26 ≤ q) (hhi : q < 2 ^ 29) :
    (qReg q).toInt = q ∧ -2 ^ 26 ≤ (qReg q).toInt ∧ (qReg q).toInt < 2 ^ 29 ∧
    (qReg q).getLsbD 30 = (qReg q).getLsbD 31 ∧ (qReg q).getLsbD 29 = (qReg q).getLsbD 31 := by
  have hread := qReg_toInt (q := q) (by omega) (by omega)
  exact ⟨hread, by omega, by omega, sign_bits_eq (by omega) (by omega)⟩

/-- Settles O39: each register read back, with the ranges of the three scaled values. -/
theorem rawAndFixedPointRegisters : Obligations.RawAndFixedPointRegisters := by
  unfold Obligations.RawAndFixedPointRegisters
  intro s
  have hhum := humQ_bounds s.rawH
  have htc := tcQ_bounds s.rawT
  have htf := tfQ_bounds s.rawT
  have hread := qReg_toNat hhum.1 (by omega)
  exact ⟨⟨_, rfl, rawReg_toNat s.rawH⟩, ⟨_, rfl, rawReg_toNat s.rawT⟩, ⟨_, rfl, hread, by omega⟩,
    ⟨_, rfl, qReg_reads_signed (by omega) (by omega)⟩, ⟨_, rfl, qReg_reads_signed (by omega) (by omega)⟩⟩

/-- No scaled value is of larger magnitude than the hottest °F, whose centi magnitude is 30200 (R39, R150). -/
theorem centi_mag_le {q : Int} (hlo : -316669592 ≤ q) (hhi : q ≤ 316669592) : (centi q).mag ≤ 30200 := by
  rw [centi_mag]
  omega

/-- The fields of a centi register as numbers (R39). -/
theorem centiReg_reads {q : Int} (hlo : -316669592 ≤ q) (hhi : q ≤ 316669592) :
    ((centiReg q).extractLsb' 0 16).toNat = (centi q).mag ∧ (centi q).mag ≤ 30200 ∧
    (centiReg q).extractLsb' 16 15 = 0 ∧ (centiReg q).getLsbD 31 = decide (q < 0) := by
  obtain ⟨hmag, hzero, hneg⟩ := centiReg_fields q
  have hle := centi_mag_le hlo hhi
  refine ⟨?_, hle, hzero, hneg⟩
  rw [hmag, toNat_ofNat_of_lt (by omega)]

/-- Settles O40: the three registers have one form, and their values one bound. -/
theorem centiRegisterFields : Obligations.CentiRegisterFields := by
  unfold Obligations.CentiRegisterFields
  intro s p hp
  have hhum := humQ_bounds s.rawH
  have htc := tcQ_bounds s.rawT
  have htf := tfQ_bounds s.rawT
  simp only [List.mem_cons, List.not_mem_nil, or_false] at hp
  obtain rfl | rfl | rfl := hp
  · exact ⟨_, rfl, centiReg_reads (by omega) (by omega)⟩
  · exact ⟨_, rfl, centiReg_reads (by omega) (by omega)⟩
  · exact ⟨_, rfl, centiReg_reads (by omega) (by omega)⟩

/-- The fields of a digit register as numbers (R40, R152). -/
theorem digitReg_reads (q : Int) :
    ((digitReg q).extractLsb' 0 4).toNat = (centi q).mag % 10 ∧
    ((digitReg q).extractLsb' 4 4).toNat = (centi q).mag / 10 % 10 ∧
    ((digitReg q).extractLsb' 8 4).toNat = (centi q).mag / 100 % 10 ∧
    ((digitReg q).extractLsb' 12 4).toNat = (centi q).mag / 1000 % 10 ∧
    ((digitReg q).getLsbD 16 = true ↔ 10000 ≤ (centi q).mag) ∧ (digitReg q).extractLsb' 17 14 = 0 ∧
    (digitReg q).getLsbD 31 = decide (q < 0) := by
  have hdigit (n : Nat) : (BitVec.ofNat 4 (n % 10)).toNat = n % 10 := toNat_ofNat_of_lt (by omega)
  obtain ⟨h0, h1, h2, h3, hrange, hzero, hneg⟩ := digitReg_fields q
  rw [h0, h1, h2, h3, hrange]
  exact ⟨hdigit _, hdigit _, hdigit _, hdigit _, digits_range_iff q, hzero, hneg⟩

/-- Settles O41: the three registers have one form. -/
theorem digitRegisterFields : Obligations.DigitRegisterFields := by
  unfold Obligations.DigitRegisterFields
  intro s p hp
  simp only [List.mem_cons, List.not_mem_nil, or_false] at hp
  obtain rfl | rfl | rfl := hp <;> exact ⟨_, rfl, digitReg_reads _⟩

/-- Settles O42: the identity of the two scales, carried to the registers that hold them exactly. -/
theorem fahrenheitIdentity : Obligations.FahrenheitIdentity := by
  unfold Obligations.FahrenheitIdentity
  intro s
  have htc := tcQ_bounds s.rawT
  have htf := tfQ_bounds s.rawT
  have hidentity := tfQ_tcQ_identity s.rawT
  refine ⟨hidentity, qReg (tcQ s.rawT), qReg (tfQ s.rawT), rfl, rfl, ?_⟩
  rwa [qReg_toInt (by omega) (by omega), qReg_toInt (by omega) (by omega)]

end Sys2Proof.Machine

/-! ### Command words and commands, in both directions (R70, R73 to R78) -/

namespace Sys2Proof

open Laws.EncodedFields (Statement opcode address byte)

/-- The fields of every command's word (R70, R73). -/
theorem encode_fields (i : Instr) : Statement i := by
  cases i with
  | nop => exact Laws.EncodedFields.nop
  | start => exact Laws.EncodedFields.start
  | push b => exact Laws.EncodedFields.push b
  | abort => exact Laws.EncodedFields.abort
  | read a => exact Laws.EncodedFields.read a

/-- A word is a command's word exactly if it carries its three fields (R70, R73). -/
theorem encode_eq_iff (i : Instr) (w : Cmd) :
    encode i = w ↔ opField w = opcode i ∧ addrField w = address i ∧ dataField w = byte i := by
  obtain ⟨hop, haddr, hdata⟩ := encode_fields i
  constructor
  · rintro rfl
    exact ⟨hop, haddr, hdata⟩
  · rintro ⟨hop', haddr', hdata'⟩
    rw [← word_eq_fields (encode i), ← word_eq_fields w, hop, haddr, hdata, hop', haddr', hdata']

/-- A well-formed command is read back from its own word (R78). -/
theorem decode_encode {i : Instr} (hwf : i.wf = true) : decode (encode i) = .legal i := by
  obtain ⟨hop, haddr, hdata⟩ := encode_fields i
  cases i with
  | nop => rfl
  | start => rfl
  | abort => rfl
  | push b =>
    simp [decode, decodePush, hop, haddr, hdata, opcode, address, byte]
  | read a =>
    have ha : readableAddr a = true := hwf
    simp [decode, decodeRead, hop, haddr, hdata, ha, opcode, address, byte]

/-- A legal word is the word of the command it decodes to (R78). -/
theorem encode_of_decode {w : Cmd} {i : Instr} (h : decode w = .legal i) : encode i = w := by
  rw [encode_eq_iff]
  obtain ⟨rfl, hop, haddr, hdata⟩ | ⟨rfl, hop, haddr, hdata⟩ | ⟨rfl, hop, haddr⟩ |
    ⟨rfl, hop, haddr, hdata⟩ | ⟨rfl, hop, hdata, _⟩ := decode_legal_cases h
  · exact ⟨hop, haddr, hdata⟩
  · exact ⟨hop, haddr, hdata⟩
  · exact ⟨hop, haddr, rfl⟩
  · exact ⟨hop, haddr, hdata⟩
  · exact ⟨hop, rfl, hdata⟩

/-- READ names a register exactly if its address is not 0xF (R76). -/
theorem readableAddr_iff (a : RegAddr) : readableAddr a = true ↔ a ≠ 0xF := by
  revert a
  decide

/-- The word of PUSH is its byte under the constant 0x20: OP 2 and ADDR 0 (R73). -/
theorem encode_push (b : Byte) : encode (.push b) = 0x20#8 ++ b := rfl

/-- The word of PUSH as a number (R73). -/
theorem encode_push_toNat (b : Byte) : (encode (.push b)).toNat = 0x2000 + b.toNat := by
  rw [encode_push, BitVec.toNat_append, ← Nat.shiftLeft_add_eq_or_of_lt b.isLt]
  rfl

/-- The word of READ as a number (R73). -/
theorem encode_read_toNat (a : RegAddr) : (encode (.read a)).toNat = 0x4000 + 0x100 * a.toNat := by
  revert a
  decide

end Sys2Proof

namespace Sys2Proof.Machine

open Laws.EncodedFields (opcode address byte)

/-! #### The legal words (R73) -/

/-- The legal words are the words of the well-formed commands (R73, R78). -/
theorem isLegal_iff_encode (w : Cmd) : isLegal w = true ↔ ∃ i : Instr, i.wf = true ∧ encode i = w := by
  constructor
  · intro h
    cases hd : decode w with
    | legal i => exact ⟨i, decode_legal_wf hd, encode_of_decode hd⟩
    | illegal why => simp [isLegal_of_illegal hd] at h
  · rintro ⟨i, hwf, rfl⟩
    exact isLegal_of_legal (decode_encode hwf)

/-- The legal words as numbers (R73). -/
theorem isLegal_iff_toNat (w : Cmd) : isLegal w = true ↔
    w = 0x0000 ∨ w = 0x1000 ∨ (0x2000 ≤ w.toNat ∧ w.toNat ≤ 0x20FF) ∨ w = 0x3000 ∨
      ∃ a, a ≤ 0xE ∧ w.toNat = 0x4000 + 0x100 * a := by
  rw [isLegal_iff_encode]
  constructor
  · rintro ⟨i, hwf, rfl⟩
    cases i with
    | nop => exact .inl rfl
    | start => exact .inr (.inl rfl)
    | push b =>
      have := b.isLt
      exact .inr (.inr (.inl (by rw [encode_push_toNat]; omega)))
    | abort => exact .inr (.inr (.inr (.inl rfl)))
    | read a => exact .inr (.inr (.inr (.inr ⟨a.toNat, of_decide_eq_true hwf, encode_read_toNat a⟩)))
  · rintro (rfl | rfl | ⟨hlo, hhi⟩ | rfl | ⟨a, ha, hw⟩)
    · exact ⟨.nop, rfl, rfl⟩
    · exact ⟨.start, rfl, rfl⟩
    · refine ⟨.push (BitVec.ofNat 8 (w.toNat - 0x2000)), rfl, BitVec.eq_of_toNat_eq ?_⟩
      rw [encode_push_toNat, toNat_ofNat_of_lt (by omega)]
      omega
    · exact ⟨.abort, rfl, rfl⟩
    · have haddr : (BitVec.ofNat 4 a).toNat = a := toNat_ofNat_of_lt (by omega)
      refine ⟨.read (BitVec.ofNat 4 a), decide_eq_true (haddr.symm ▸ ha), BitVec.eq_of_toNat_eq ?_⟩
      rw [encode_read_toNat, haddr, hw]

/-- Every command with a legal word: the rows of the opcode map with all their operands (R73). -/
def legalCommands : List Instr :=
  [.nop, .start, .abort] ++ (List.finRange 256).map (fun b => .push (.ofFin b)) ++
    (List.finRange 15).map fun a => .read (.ofNat 4 a.val)

theorem legalCommands_length : legalCommands.length = 274 := by
  simp [legalCommands]

/-- The opcode map leaves out no well-formed command and has no other (R73). -/
theorem mem_legalCommands (i : Instr) : i ∈ legalCommands ↔ i.wf = true := by
  cases i with
  | read a =>
    revert a
    decide
  | _ => simp [legalCommands, Instr.wf]

/-- Each command stands in the opcode map once: operand values of one row are different (R73). -/
theorem legalCommands_nodup : legalCommands.Nodup := by
  have hpush : ((List.finRange 256).map fun b => Instr.push (.ofFin b)).Nodup :=
    (List.nodup_finRange 256).map fun b c h => by simpa using h
  have hread : ((List.finRange 15).map fun a => Instr.read (.ofNat 4 a.val)).Nodup := by decide
  simp [legalCommands, List.nodup_append, hpush, hread]

/-- No two legal commands share a word (R78). -/
theorem legalWords_nodup : (legalCommands.map encode).Nodup := by
  refine List.Nodup.map_on (fun i hi j hj h => ?_) legalCommands_nodup
  have hdi := decode_encode ((mem_legalCommands i).1 hi)
  have hdj := decode_encode ((mem_legalCommands j).1 hj)
  exact Decoded.legal.inj (hdi.symm.trans (h ▸ hdj))

theorem legalWords_length : (legalCommands.map encode).length = 274 := by
  rw [List.length_map, legalCommands_length]

theorem isLegal_iff_mem (w : Cmd) : isLegal w = true ↔ w ∈ legalCommands.map encode := by
  simp only [isLegal_iff_encode, List.mem_map, mem_legalCommands]

/-- Settles O4: the legal words are those of the well-formed commands, counted as commands. -/
theorem legalWordsAreTheOpcodeMap : Obligations.LegalWordsAreTheOpcodeMap := by
  unfold Obligations.LegalWordsAreTheOpcodeMap
  refine ⟨isLegal_iff_toNat, ⟨rfl, rfl, fun b => decode_encode (i := .push b) rfl, rfl,
    fun a ha => decode_encode (i := .read a) ((readableAddr_iff a).2 ha)⟩,
    legalCommands.map encode, legalWords_nodup, legalWords_length, ?_, isLegal_iff_mem⟩
  rw [legalWords_length]
  decide

/-! #### The illegal words (R74 to R77) -/

/-- The legal words in terms of their fields (R73 to R76). -/
theorem isLegal_iff_fields (w : Cmd) : isLegal w = true ↔
    (opField w).toNat < 5 ∧ ((opField w).toNat ≤ 3 → addrField w = 0) ∧
    ((opField w).toNat ≠ 2 → dataField w = 0) ∧ ((opField w).toNat = 4 → addrField w ≠ 0xF) := by
  simp only [isLegal_iff_encode, encode_eq_iff]
  constructor
  · rintro ⟨i, hwf, hop, haddr, hdata⟩
    rw [hop, haddr, hdata]
    cases i with
    | read a =>
      have ha : a ≠ 0xF := (readableAddr_iff a).1 hwf
      simpa [opcode, address, byte] using ha
    | _ => simp [opcode, address, byte]
  · rintro ⟨hlt, haddr, hdata, hread⟩
    have hop : opField w = BitVec.ofNat 4 (opField w).toNat := by simp
    generalize (opField w).toNat = n at *
    interval_cases n
    · exact ⟨.nop, rfl, hop, haddr (by decide), hdata (by decide)⟩
    · exact ⟨.start, rfl, hop, haddr (by decide), hdata (by decide)⟩
    · exact ⟨.push (dataField w), rfl, hop, haddr (by decide), rfl⟩
    · exact ⟨.abort, rfl, hop, haddr (by decide), hdata (by decide)⟩
    · exact ⟨.read (addrField w), (readableAddr_iff _).2 (hread rfl), hop, rfl, hdata (by decide)⟩

/-- A word is illegal exactly if one of the conditions on a legal one fails (R74 to R76). -/
theorem isLegal_false_iff_fields (w : Cmd) : isLegal w = false ↔
    5 ≤ (opField w).toNat ∨ ((opField w).toNat ≤ 3 ∧ addrField w ≠ 0) ∨
    ((opField w).toNat ≠ 2 ∧ dataField w ≠ 0) ∨ ((opField w).toNat = 4 ∧ addrField w = 0xF) := by
  rw [← Bool.not_eq_true, isLegal_iff_fields]
  simp only [not_and_or, Classical.not_imp, not_lt, ne_eq, not_not]

/-- An illegal word only raises ILL (R77, R226). -/
theorem runWord_of_illegal {w : Cmd} (h : isLegal w = false) (s : State) :
    runWord w s = .next (raiseIll s) := by
  cases hd : decode w with
  | legal i => simp [isLegal_of_legal hd] at h
  | illegal why => simp [runWord, hd]

/-- Settles O5: the conditions on the fields, and what an illegal word does in any state. -/
theorem illegalWordsSetIllAndNothingElse : Obligations.IllegalWordsSetIllAndNothingElse := by
  unfold Obligations.IllegalWordsSetIllAndNothingElse
  exact fun w => ⟨isLegal_false_iff_fields w, fun s h => runWord_of_illegal h s⟩

/-! #### Examples, register names and pseudo-instructions (R80 to R82) -/

/-- Settles O1: encoder, decoder and assembler evaluated on the examples. -/
theorem encodingExamples : Obligations.EncodingExamples := by
  unfold Obligations.EncodingExamples
  exact ⟨by decide, ⟨rfl, rfl, rfl, rfl, rfl, rfl, rfl, ⟨_, rfl⟩, ⟨_, rfl⟩⟩, by decide⟩

/-- The CRC of a frame spans its first six bytes only (R103). -/
theorem frameCrc_push (d : Vector Byte 6) (b : Byte) : frameCrc (d.push b) = crc8 d.toList := by
  simp [frameCrc, Vector.toList_push]

/-- The frame that FRAMEC builds passes the CRC check (R81, R104). -/
theorem crcMatch_push_crc8 (d : Vector Byte 6) : crcMatch (d.push (crc8 d.toList)) = true := by
  rw [crcMatch_iff, frameCrc_push]
  simp

/-- Settles O6: names and words are evaluated, with any operand bytes; the match is that of the CRC span. -/
theorem registerNamesAndPseudoInstructions : Obligations.RegisterNamesAndPseudoInstructions := by
  unfold Obligations.RegisterNamesAndPseudoInstructions
  exact ⟨by decide, fun _ _ _ _ _ _ _ => rfl, fun _ _ _ _ _ _ => rfl, crcMatch_push_crc8, rfl⟩

end Sys2Proof.Machine

/-! ### The CRC of a byte sequence and of a frame (R102, R103, R105) -/

namespace Sys2Proof.Machine

/-- Zero stays zero for any number of iterations of the bit loop. -/
theorem repeat_crcShift_zero (n : Nat) : Nat.repeat crcShift n 0 = 0 := by
  induction n with
  | zero => rfl
  | succ n ih => rw [Nat.repeat, ih, crcShift_zero]

/-- Folding a CRC value into itself leaves no remainder, as there is no final XOR (R100, R105). -/
theorem crc8Step_self (c : Byte) : crc8Step c c = 0 := by
  rw [crc8Step, BitVec.xor_self]
  exact repeat_crcShift_zero 8

/-- Settles O52: the last byte is folded into a CRC value equal to it. -/
theorem crcResidueIsZero : Obligations.CrcResidueIsZero := by
  unfold Obligations.CrcResidueIsZero
  intro bs
  rw [crc8_append_one, crc8Step_self]

/-- Settles O50: the seed and one step per byte by the lemmas on `crc8`; the two sequences are evaluated. -/
theorem crcOfASequence : Obligations.CrcOfASequence := by
  unfold Obligations.CrcOfASequence
  exact ⟨crc8_nil, crc8_append_one, by decide +kernel, by decide +kernel⟩

/-- Settles O51: the span byte by byte, and the match as an equation with byte 6. -/
theorem crcSpanAndMatch : Obligations.CrcSpanAndMatch := by
  unfold Obligations.CrcSpanAndMatch
  intro f
  refine ⟨frameCrc_eq_bytes f, ?_⟩
  rw [crcMatch_iff, frameCrc_eq_bytes]

end Sys2Proof.Machine

/-! ### The fields of a frame, and the frame built from them (R122 to R126) -/

namespace Sys2Proof.Machine

/-! #### Extraction as slices -/

/-- A byte's high nibble, widened (R122). -/
theorem setWidth_highNibble (b : Byte) : (b.extractLsb' 4 4).setWidth 20 = b.setWidth 20 >>> 4 := by
  have := b.isLt
  apply BitVec.eq_of_toNat_eq
  simp only [BitVec.toNat_setWidth, BitVec.extractLsb'_toNat, BitVec.toNat_ushiftRight, Nat.shiftRight_eq_div_pow]
  omega

/-- A byte's low nibble, widened (R123). -/
theorem setWidth_lowNibble (b : Byte) : (b.extractLsb' 0 4).setWidth 20 = (b &&& 0x0F).setWidth 20 := by
  have hmask : b.toNat &&& 15 = b.toNat % 16 := Nat.and_two_pow_sub_one_eq_mod b.toNat 4
  apply BitVec.eq_of_toNat_eq
  rw [BitVec.toNat_setWidth, BitVec.toNat_setWidth, BitVec.toNat_and]
  exact congrArg (· % 2 ^ 20) hmask.symm

/-- Three values side by side are their shifted terms joined by OR. -/
theorem append_append_eq_or {a b c : Nat} (x : BitVec a) (y : BitVec b) (z : BitVec c) :
    x ++ y ++ z = (x.setWidth (a + b + c) <<< (b + c)) ||| (y.setWidth (a + b + c) <<< c) |||
      z.setWidth (a + b + c) := by
  rw [← BitVec.setWidth_append_append_eq_shiftLeft_setWidth_or, BitVec.setWidth_eq]

theorem extractH_eq_append (f : Frame) : extractH f = f[1] ++ f[2] ++ f[3].extractLsb' 4 4 := by
  rw [extractH, ← setWidth_highNibble]
  exact (append_append_eq_or f[1] f[2] (f[3].extractLsb' 4 4)).symm

theorem extractT_eq_append (f : Frame) : extractT f = f[3].extractLsb' 0 4 ++ f[4] ++ f[5] := by
  rw [extractT, ← setWidth_lowNibble]
  exact (append_append_eq_or (f[3].extractLsb' 0 4) f[4] f[5]).symm

/-- The nibbles of byte 3 meet where the fields do (R124). -/
theorem extractH_append_extractT (f : Frame) :
    extractH f ++ extractT f = f[1] ++ f[2] ++ f[3] ++ f[4] ++ f[5] := by
  have h3 : f[3].extractLsb' 4 4 ++ f[3].extractLsb' 0 4 = f[3] := BitVec.extractLsb'_append_extractLsb'
  calc extractH f ++ extractT f
      = f[1] ++ f[2] ++ f[3].extractLsb' 4 4 ++ (f[3].extractLsb' 0 4 ++ f[4] ++ f[5]) := by
        rw [extractH_eq_append, extractT_eq_append]
    _ = f[1] ++ f[2] ++ (f[3].extractLsb' 4 4 ++ f[3].extractLsb' 0 4) ++ f[4] ++ f[5] := by
        simp only [BitVec.append_assoc', BitVec.cast_eq]
    _ = f[1] ++ f[2] ++ f[3] ++ f[4] ++ f[5] := by rw [h3]

/-- Writing bytes 0 and 6 leaves the data bytes (R120). -/
theorem getElem_set_zero_set_six (f : Frame) (x y : Byte) (i : Nat) (h : 0 < i ∧ i < 6) :
    ((f.set 0 x).set 6 y)[i] = f[i] := by
  rw [Vector.getElem_set_ne _ _ (by omega), Vector.getElem_set_ne _ _ (by omega)]

/-- Settles O53: the slices, the slices side by side, and the bytes they read, which the writes leave. -/
theorem rawFieldsAreTheFortyDataBits : Obligations.RawFieldsAreTheFortyDataBits := by
  unfold Obligations.RawFieldsAreTheFortyDataBits
  refine ⟨fun f => ⟨extractH_eq_append f, extractT_eq_append f, extractH_append_extractT f⟩,
    fun f x y => ⟨?_, ?_⟩⟩
  · simp (disch := decide) only [extractH, getElem_set_zero_set_six]
  · simp (disch := decide) only [extractT, getElem_set_zero_set_six]

/-! #### Construction -/

/-- Cutting a value into three slices and placing them side by side gives it back. -/
theorem append_three_slices {a b c : Nat} (x : BitVec (a + b + c)) :
    x.extractLsb' (c + b) a ++ x.extractLsb' c b ++ x.extractLsb' 0 c = x := by
  rw [BitVec.extractLsb'_append_extractLsb'_eq_extractLsb' rfl,
    BitVec.extractLsb'_append_extractLsb'_eq_extractLsb' (Nat.zero_add c).symm, BitVec.extractLsb'_eq_self]

theorem extractH_makeFrame (s : Byte) (h t : Raw) : extractH (makeFrame s h t) = h := by
  calc extractH (makeFrame s h t)
      = h.extractLsb' 12 8 ++ h.extractLsb' 4 8 ++ (h.extractLsb' 0 4 ++ t.extractLsb' 16 4).extractLsb' 4 4 :=
        extractH_eq_append _
    _ = h.extractLsb' 12 8 ++ h.extractLsb' 4 8 ++ h.extractLsb' 0 4 := by rw [BitVec.extractLsb'_append_eq_left]
    _ = h := append_three_slices (a := 8) (b := 8) (c := 4) h

theorem extractT_makeFrame (s : Byte) (h t : Raw) : extractT (makeFrame s h t) = t := by
  calc extractT (makeFrame s h t)
      = (h.extractLsb' 0 4 ++ t.extractLsb' 16 4).extractLsb' 0 4 ++ t.extractLsb' 8 8 ++ t.extractLsb' 0 8 :=
        extractT_eq_append _
    _ = t.extractLsb' 16 4 ++ t.extractLsb' 8 8 ++ t.extractLsb' 0 8 := by rw [BitVec.extractLsb'_append_eq_right]
    _ = t := append_three_slices (a := 4) (b := 8) (c := 8) t

/-- Settles O54: the slices of the built bytes are the fields again, and byte 6 is the CRC of the six before
it; the example is evaluated. -/
theorem constructedFrameGivesItsFieldsBack : Obligations.ConstructedFrameGivesItsFieldsBack := by
  unfold Obligations.ConstructedFrameGivesItsFieldsBack
  exact ⟨fun s h t => ⟨rfl, extractH_makeFrame s h t, extractT_makeFrame s h t,
    crcMatch_push_crc8 (frameData s h t)⟩, by decide +kernel⟩

end Sys2Proof.Machine

/-! ### The scaler: formulas, rounding, ranges, negative zero and digits (R141 to R153) -/

namespace Sys2Proof.Machine

/-- Settles O43: the formulas with the bounds on the scaled values; the corner values are evaluated. -/
theorem fixedPointFormulas : Obligations.FixedPointFormulas := by
  unfold Obligations.FixedPointFormulas
  exact ⟨fun h => ⟨rfl, humQ_bounds h⟩, fun t => ⟨rfl, tcQ_bounds t⟩, fun t => ⟨rfl, tfQ_bounds t⟩,
    by decide, by decide, by decide⟩

/-! #### Rounding and ties (R148, R149) -/

/-- Where the magnitude reaches a number of hundredths (R149). -/
theorem le_centi_mag_iff {q : Int} {m : Nat} :
    m ≤ (centi q).mag ↔ 2 ^ 20 * m ≤ q.natAbs * 100 + 2 ^ 19 := by
  rw [centi_mag]
  omega

/-- Where the magnitude is at most a number of hundredths (R149). -/
theorem centi_mag_le_iff {q : Int} {m : Nat} :
    (centi q).mag ≤ m ↔ q.natAbs * 100 + 2 ^ 19 < 2 ^ 20 * (m + 1) := by
  rw [centi_mag]
  omega

/-- At a tie the rounding is exact on the half added (R149). -/
theorem centi_mag_of_tie {q : Int} (h : q.natAbs * 100 % 2 ^ 20 = 2 ^ 19) :
    2 ^ 20 * (centi q).mag = q.natAbs * 100 + 2 ^ 19 := by
  rw [centi_mag]
  omega

/-- The ties are the odd multiples of 2^17, as 100 is 4 times an odd number (R149). -/
theorem tie_iff (q : Int) : q.natAbs * 100 % 2 ^ 20 = 2 ^ 19 ↔ q % 2 ^ 18 = 2 ^ 17 := by
  omega

theorem humQ_tie_iff (h : Raw) : humQ h % 2 ^ 18 = 2 ^ 17 ↔ h.toNat % 65536 = 32768 := by
  unfold humQ
  omega

theorem tcQ_tie_iff (t : Raw) : tcQ t % 2 ^ 18 = 2 ^ 17 ↔ t.toNat % 32768 = 16384 := by
  unfold tcQ
  omega

theorem tfQ_tie_iff (t : Raw) : tfQ t % 2 ^ 18 = 2 ^ 17 ↔ t.toNat % 32768 = 16384 := by
  unfold tfQ
  omega

/-- The numbers below `d * c` with a given remainder by `d`, listed by their quotient. -/
theorem mod_eq_iff_exists_lt {n d r c : Nat} (hr : r < d) (hn : n < d * c) :
    n % d = r ↔ ∃ k < c, n = r + d * k := by
  constructor
  · rintro rfl
    exact ⟨n / d, Nat.div_lt_of_lt_mul hn, (Nat.mod_add_div n d).symm⟩
  · rintro ⟨k, _, rfl⟩
    rw [Nat.add_mul_mod_self_left, Nat.mod_eq_of_lt hr]

/-- Settles O44: the rounding as two bounds and an equation; the ties as residues of the raw fields. -/
theorem centiRoundsHalfAwayFromZero : Obligations.CentiRoundsHalfAwayFromZero := by
  unfold Obligations.CentiRoundsHalfAwayFromZero
  refine ⟨fun q => ⟨centi_neg_iff q, le_centi_mag_iff.1 le_rfl, centi_mag_le_iff.1 le_rfl, centi_mag_of_tie⟩,
    fun h => ?_, fun t => ?_, fun t => ?_, by decide, by decide, by decide⟩
  · rw [tie_iff, humQ_tie_iff]
    exact mod_eq_iff_exists_lt (by decide) h.isLt
  · rw [tie_iff, tcQ_tie_iff]
    exact mod_eq_iff_exists_lt (by decide) t.isLt
  · rw [tie_iff, tfQ_tie_iff]
    exact mod_eq_iff_exists_lt (by decide) t.isLt

/-! #### Ranges (R150) -/

theorem centi_neg_eq_false_iff (q : Int) : (centi q).neg = false ↔ 0 ≤ q := by
  rw [centi_neg, decide_eq_false_iff_not, not_lt]

/-- Humidity is never negative (R150, R151). -/
theorem centi_humQ_neg (h : Raw) : (centi (humQ h)).neg = false :=
  (centi_neg_eq_false_iff _).2 (humQ_bounds h).1

theorem centi_humQ_mag_le (h : Raw) : (centi (humQ h)).mag ≤ 10000 := by
  have := humQ_bounds h
  rw [centi_mag_le_iff]
  omega

/-- The humidities that round to 100.00 (R150). -/
theorem le_centi_humQ_mag_iff (h : Raw) : 10000 ≤ (centi (humQ h)).mag ↔ 1048524 ≤ h.toNat := by
  rw [le_centi_mag_iff, humQ]
  omega

theorem centi_tcQ_mag_le_of_nonneg {t : Raw} (h : 0 ≤ tcQ t) : (centi (tcQ t)).mag ≤ 15000 := by
  have := tcQ_bounds t
  rw [centi_mag_le_iff]
  omega

theorem centi_tcQ_mag_le_of_neg {t : Raw} (h : tcQ t < 0) : (centi (tcQ t)).mag ≤ 5000 := by
  have := tcQ_bounds t
  rw [centi_mag_le_iff]
  omega

theorem centi_tfQ_mag_le (t : Raw) : (centi (tfQ t)).mag ≤ 30200 := by
  have := tfQ_bounds t
  exact centi_mag_le (by omega) (by omega)

theorem centi_tfQ_mag_le_of_neg {t : Raw} (h : tfQ t < 0) : (centi (tfQ t)).mag ≤ 5800 := by
  have := tfQ_bounds t
  rw [centi_mag_le_iff]
  omega

/-- Settles O45: the bounds by the sign of the exact value, and the threshold of 100.00. -/
theorem centiRanges : Obligations.CentiRanges := by
  unfold Obligations.CentiRanges
  simp only [centi_neg_iff, centi_neg_eq_false_iff]
  refine ⟨fun h => ⟨(humQ_bounds h).1, centi_humQ_mag_le h, ?_⟩,
    fun t => ⟨centi_tcQ_mag_le_of_nonneg, centi_tcQ_mag_le_of_neg⟩,
    fun t => ⟨fun _ => centi_tfQ_mag_le t, centi_tfQ_mag_le_of_neg⟩⟩
  rw [← (centi_humQ_mag_le h).ge_iff_eq, le_centi_humQ_mag_iff]

/-! #### Negative zero (R151) -/

/-- Negative zero stands for the negative values of less than half a hundredth (R151). -/
theorem centi_eq_negative_zero_iff (q : Int) : centi q = ⟨true, 0⟩ ↔ -5243 < q ∧ q < 0 := by
  have hparts : centi q = ⟨true, 0⟩ ↔ (centi q).neg = true ∧ (centi q).mag = 0 :=
    iff_of_eq (Centi.mk.injEq _ _ _ _)
  rw [hparts, centi_neg_iff, ← Nat.le_zero, centi_mag_le_iff]
  omega

/-- Settles O46: the raw values whose exact value is negative and less than half a hundredth. -/
theorem negativeZeroOccurs : Obligations.NegativeZeroOccurs := by
  unfold Obligations.NegativeZeroOccurs
  refine ⟨fun t => ?_, fun t => ?_, centi_humQ_neg⟩
  · rw [centi_eq_negative_zero_iff, tcQ]
    omega
  · rw [centi_eq_negative_zero_iff, tfQ]
    omega

/-! #### Digits and RANGE (R152, R153) -/

/-- The four digits are decimal digits of the wrapped magnitude (R152). -/
theorem digits_decimal (q : Int) :
    (digits q).d3 ≤ 9 ∧ (digits q).d2 ≤ 9 ∧ (digits q).d1 ≤ 9 ∧ (digits q).d0 ≤ 9 ∧
    1000 * (digits q).d3 + 100 * (digits q).d2 + 10 * (digits q).d1 + (digits q).d0 =
      (centi q).mag % 10000 := by
  simp only [digits_d3, digits_d2, digits_d1, digits_d0]
  omega

/-- RANGE is clear for a magnitude of four digits (R152). -/
theorem digits_range_eq_false {q : Int} (h : (centi q).mag < 10000) : (digits q).range = false := by
  rw [← Bool.not_eq_true, digits_range_iff, not_le]
  exact h

theorem le_centi_tcQ_mag_iff (t : Raw) : 10000 ≤ (centi (tcQ t)).mag ↔ 786406 ≤ t.toNat := by
  rw [le_centi_mag_iff, tcQ]
  omega

theorem le_centi_tfQ_mag_iff (t : Raw) : 10000 ≤ (centi (tfQ t)).mag ↔ 460194 ≤ t.toNat := by
  rw [le_centi_mag_iff, tfQ]
  omega

/-- Settles O47: the digits of any magnitude, the raw values of the magnitude 10000, and the bounds on
humidity and on the negative values; the example is evaluated. -/
theorem digitsWrapWithRange : Obligations.DigitsWrapWithRange := by
  unfold Obligations.DigitsWrapWithRange
  refine ⟨fun q => ?_, fun h => ⟨?_, fun hrange => ?_⟩, fun t => ?_, fun t => ?_,
    fun t => ⟨fun hneg => ?_, fun hneg => ?_⟩, by decide⟩
  · obtain ⟨h3, h2, h1, h0, hsum⟩ := digits_decimal q
    exact ⟨digits_neg q, h3, h2, h1, h0, hsum, digits_range_iff q⟩
  · rw [digits_range_iff, le_centi_humQ_mag_iff]
  · exact (centi_humQ_mag_le h).antisymm ((digits_range_iff _).1 hrange)
  · rw [digits_range_iff, le_centi_tcQ_mag_iff]
  · rw [digits_range_iff, le_centi_tfQ_mag_iff]
  · exact digits_range_eq_false ((centi_tcQ_mag_le_of_neg hneg).trans_lt (by decide))
  · exact digits_range_eq_false ((centi_tfQ_mag_le_of_neg hneg).trans_lt (by decide))

end Sys2Proof.Machine

/-! ### The framer commands: NOP, START, PUSH and ABORT, and a stream of frames (R171 to R181) -/

namespace Sys2Proof.Machine

/-! #### NOP, START and ABORT -/

/-- With OP, ADDR and DATA all zero a word is 0x0000, so no other word with OP = 0x0 is legal (R73, R171). -/
theorem eq_zero_of_opField_zero_of_isLegal {w : Cmd} (hop : opField w = 0) (hw : isLegal w = true) :
    w = 0x0000 := by
  obtain ⟨_, haddr, hdata, _⟩ := (isLegal_iff_fields w).1 hw
  rw [hop] at haddr hdata
  rw [← word_eq_fields w, hop, haddr (by decide), hdata (by decide)]
  rfl

/-- Settles O11: NOP answers its own state, and a second legal word with OP = 0x0 would be 0x0000. -/
theorem nopChangesNothing : Obligations.NopChangesNothing := by
  unfold Obligations.NopChangesNothing
  refine ⟨fun _ => rfl, rfl, fun w hop hne => ?_⟩
  rw [← Bool.not_eq_true]
  exact fun hw => hne (eq_zero_of_opField_zero_of_isLegal hop hw)

/-- Between frames ACC is the seed already, so re-arming changes nothing (R24, R172). -/
theorem State.Inv.rearm_eq_self {s : State} (h : s.Inv) (h0 : s.cnt = 0) : Machine.rearm s = s := by
  have hacc : s.acc = crcInit := by
    rw [h.running, h0]
    rfl
  rw [Machine.rearm, ← h0, ← hacc]

/-- Settles O12: START is `rearm`, which is the identity between frames. -/
theorem startDropsThePartialFrame : Obligations.StartDropsThePartialFrame := by
  unfold Obligations.StartDropsThePartialFrame
  exact ⟨rfl, fun _ => rfl, fun _ h h0 => congrArg Host.Outcome.next (h.rearm_eq_self h0)⟩

/-- Settles O17: ABORT writes three constants, so a second one writes what stands there. -/
theorem abortRecordsReadFail : Obligations.AbortRecordsReadFail := by
  unfold Obligations.AbortRecordsReadFail
  refine ⟨rfl, fun _ => rfl, fun s t ht => ?_⟩
  obtain rfl : setOutcome resReadFail (rearm s) = t := Host.Outcome.next.inj ht
  rfl

/-! #### PUSH, accumulating (R175) -/

/-- The whole state after an accumulating PUSH: the byte lies inside RX and the count does not wrap. -/
theorem accumulate_eq (b : Byte) (s : State) (h : s.cnt.val < 6) :
    accumulate b s = { s with
      rx := s.rx.set s.cnt.val b h
      acc := crc8Step s.acc b
      cnt := ⟨s.cnt.val + 1, Nat.succ_lt_succ h⟩ } := by
  have hcnt : (accumulate b s).cnt = ⟨s.cnt.val + 1, Nat.succ_lt_succ h⟩ :=
    Fin.ext (accumulate_cnt_val b s h)
  rw [← hcnt, ← accumulate_rx_set b s h]
  rfl

/-- Settles O13: the accumulating case of PUSH. -/
theorem pushAccumulatesAByte : Obligations.PushAccumulatesAByte := by
  unfold Obligations.PushAccumulatesAByte
  intro b s h
  rw [exec, execPush_of_lt b s h, accumulate_eq b s h]

/-! #### PUSH, completing (R176 to R179) -/

theorem exec_push_of_eq (b : Byte) (s : State) (h6 : s.cnt.val = 6) :
    exec (.push b) s = .next (complete b s) := execPush_of_eq b s h6

/-- With CNT = 6 the running CRC is that of the frame the next byte completes (R24, R176). -/
theorem State.Inv.acc_eq_frameCrc {s : State} (h : s.Inv) (b : Byte) (h6 : s.cnt.val = 6) :
    s.acc = frameCrc (receivedFrame b s) := by
  rw [frameCrc_receivedFrame, h.running, h6, List.take_of_length_le (by simp)]

/-- Settles O14: the three states a completing PUSH can leave, written out. -/
theorem pushCompletesAFrame : Obligations.PushCompletesAFrame := by
  unfold Obligations.PushCompletesAFrame
  intro b s h6
  rw [exec_push_of_eq b s h6, ← busyFlag_receivedFrame b s]
  refine ⟨fun h => h.acc_eq_frameCrc b h6, ?_⟩
  obtain ⟨hb, h⟩ | ⟨hb, hc, h⟩ | ⟨hb, hc, h⟩ := complete_cases b s <;> rw [h, hb]
  · exact ⟨fun _ => rfl, nofun, nofun⟩
  · exact ⟨nofun, fun _ _ => rfl, fun _ heq => absurd heq hc⟩
  · exact ⟨nofun, fun _ hne => absurd hc hne, fun _ _ => rfl⟩

/-- The outcome of a frame as a chain of tests on its bytes (R177). -/
theorem frameOutcome_eq_ite (f : Frame) :
    frameOutcome f = if f[0].getLsbD 7 then resBusy
      else if frameCrc f ≠ f[6] then resCrcFail else resOk := by
  rw [← busyFlag]
  obtain ⟨hb, h⟩ | ⟨hb, hc, h⟩ | ⟨hb, hc, h⟩ := frameOutcome_cases f
  · simp [h, hb]
  · simp [h, hb, hc]
  · simp [h, hb, hc]

/-- Settles O15: under the invariant a completing PUSH accepts the received frame, whose outcome rests on its
own bytes alone. -/
theorem outcomeIsBusyThenCrc : Obligations.OutcomeIsBusyThenCrc := by
  unfold Obligations.OutcomeIsBusyThenCrc
  intro b s h h6
  refine ⟨complete b s, exec_push_of_eq b s h6, complete_frame b s, ?_⟩
  rw [← frameCrc_eq_bytes, complete_eq_acceptFrame b s (h.acc_eq_frameCrc b h6)]
  exact ⟨rfl, frameOutcome_eq_ite (receivedFrame b s)⟩

/-- The registers from 0x4 on are views of the reading alone (R37 to R40). -/
theorem regValue_eq_of_same_reading {s t : State} {a : RegAddr} (ha : 4 ≤ a.toNat) (hh : t.rawH = s.rawH)
    (ht : t.rawT = s.rawT) : regValue t a = regValue s a := by
  obtain ⟨n, hn⟩ : ∃ n, a.toNat = n := ⟨_, rfl⟩
  have hlt : n < 16 := hn ▸ a.isLt
  rw [hn] at ha
  simp only [regValue, hn, hh, ht]
  interval_cases n <;> rfl

/-- A completing PUSH commits the frame with outcome OK, and keeps the reading with any other (R178, R179). -/
theorem complete_commits_or_keeps (b : Byte) (s : State) :
    ((complete b s).res = resOk ∧ (complete b s).rawH = extractH (receivedFrame b s) ∧
      (complete b s).rawT = extractT (receivedFrame b s) ∧ (complete b s).valid = true) ∨
    ((complete b s).res ≠ resOk ∧ (complete b s).rawH = s.rawH ∧ (complete b s).rawT = s.rawT ∧
      (complete b s).valid = s.valid) := by
  obtain ⟨_, h⟩ | ⟨_, _, h⟩ | ⟨_, _, h⟩ := complete_cases b s <;> rw [h]
  · exact .inr ⟨show resBusy ≠ resOk by decide, rfl, rfl, rfl⟩
  · exact .inr ⟨show resCrcFail ≠ resOk by decide, rfl, rfl, rfl⟩
  · exact .inl ⟨rfl, rfl, rfl, rfl⟩

/-- Settles O16: the commit or the retention of the reading, and with it of every register that shows it. -/
theorem commitAllTogetherOrNone : Obligations.CommitAllTogetherOrNone := by
  unfold Obligations.CommitAllTogetherOrNone
  intro b s h6
  refine ⟨complete b s, exec_push_of_eq b s h6, ?_⟩
  have hbusy : s.rx[0].getLsbD 7 = true → (complete b s).res ≠ resOk := fun hb hok => by
    obtain ⟨hclear, _⟩ := (complete_res_ok_iff b s).1 hok
    exact Bool.false_ne_true (hclear.symm.trans hb)
  rw [complete_frame]
  obtain ⟨hok, hread⟩ | ⟨hne, hh, ht, hv⟩ := complete_commits_or_keeps b s
  · exact ⟨fun _ => hread, fun hne => absurd hok hne, hbusy⟩
  · exact ⟨fun hok => absurd hok hne,
      fun _ => ⟨hh, ht, hv, fun _ ha => regValue_eq_of_same_reading ha hh ht⟩, hbusy⟩

/-! #### A stream of PUSHes (R181) -/

/-- PUSHes that do not fill the frame: their bytes follow those received before, ACC folds them in, and
only CNT, ACC and RX change (R175). -/
theorem runCommands_pushes (bs : List Byte) (is : List Instr) (s : State)
    (hlen : s.cnt.val + bs.length ≤ 6) :
    ∃ (cnt : Fin 7) (rx : Vector Byte 6), cnt.val = s.cnt.val + bs.length ∧
      rx.toList.take cnt.val = s.rx.toList.take s.cnt.val ++ bs ∧
      runCommands (bs.map .push ++ is) s =
        runCommands is { s with cnt := cnt, acc := bs.foldl crc8Step s.acc, rx := rx } := by
  induction bs generalizing s with
  | nil => exact ⟨s.cnt, s.rx, rfl, (List.append_nil _).symm, rfl⟩
  | cons b bs ih =>
    rw [List.length_cons] at hlen
    have hc : s.cnt.val < 6 := by omega
    have hcnt' := accumulate_cnt_val b s hc
    obtain ⟨cnt, rx, hcnt, hrx, hrun⟩ := ih (accumulate b s) (by omega)
    refine ⟨cnt, rx, by rw [hcnt, hcnt', List.length_cons]; omega, ?_, ?_⟩
    · rw [hrx, hcnt', accumulate_rx_set b s hc, take_set_rx s.rx s.cnt.val b hc, List.append_assoc]
      rfl
    · rw [List.map_cons, List.cons_append, runCommands_push_of_lt b _ s hc, hrun]
      rfl

/-- A frame is its first six bytes and byte 6 (R120). -/
theorem frame_eq_pop_push (f : Frame) : f.pop.push f[6] = f := Vector.push_pop_back f

/-- The seven PUSHes of a frame from CNT = 0 and ACC = 0xFF accept it as one event (R176 to R181). -/
theorem runCommands_pushFrame (f : Frame) (is : List Instr) (s : State) (h0 : s.cnt = 0)
    (hacc : s.acc = crcInit) :
    runCommands (f.toList.map .push ++ is) s = runCommands is (acceptFrame s f) := by
  obtain ⟨cnt, rx, hcnt, hrx, hrun⟩ := runCommands_pushes f.pop.toList (.push f[6] :: is) s (by simp [h0])
  have h6 : cnt.val = 6 := by simpa [h0] using hcnt
  obtain rfl : rx = f.pop := by
    apply Vector.toList_inj.1
    simpa [h0, h6, List.take_of_length_le] using hrx
  have hbytes : f.toList = f.pop.toList ++ [f[6]] := by
    rw [← Vector.toList_push, frame_eq_pop_push]
  rw [hbytes, List.map_append, List.append_assoc]
  refine hrun.trans ?_
  rw [runCommands_push_of_eq _ _ _ h6, complete_eq_acceptFrame]
  · rw [receivedFrame, frame_eq_pop_push]
    rfl
  · rw [frameCrc_receivedFrame, hacc]
    rfl

/-- Settles O21: each frame leaves CNT = 0 and ACC = 0xFF for the next, by induction on the frames. -/
theorem streamOfPushesIsAStreamOfFrames : Obligations.StreamOfPushesIsAStreamOfFrames := by
  unfold Obligations.StreamOfPushesIsAStreamOfFrames
  intro fs
  induction fs with
  | nil => exact fun _ _ _ => rfl
  | cons f fs ih =>
    intro s h0 hacc
    rw [List.flatMap_cons, runCommands_pushFrame f _ s h0 hacc, List.foldl_cons]
    exact ih (acceptFrame s f) rfl rfl

end Sys2Proof.Machine

/-! ### The readback command READ (R200, R201) -/

namespace Sys2Proof.Machine

/-! #### READ by what its address names -/

theorem exec_read_of_some {a : RegAddr} {s : State} {v : Word} (h : regValue s a = some v) :
    exec (.read a) s = .next { s with rdata := v } := execRead_of_some h

theorem exec_read_of_none {a : RegAddr} {s : State} (h : regValue s a = none) :
    exec (.read a) s = .next (raiseIll s) := execRead_of_none h

/-- Every address but 0xF names a register (R33, R201). -/
theorem exists_regValue {a : RegAddr} (ha : a ≠ 0xF) (s : State) : ∃ v, regValue s a = some v := by
  rw [← Option.isSome_iff_exists, regValue_isSome, readableAddr_iff]
  exact ha

/-- A READ word that names no register, or carries a byte, is illegal (R74, R76). -/
theorem isLegal_read_eq_false {w : Cmd} (hop : opField w = 4) (h : addrField w = 0xF ∨ dataField w ≠ 0) :
    isLegal w = false := by
  rw [isLegal_false_iff_fields, hop]
  obtain haddr | hdata := h
  · exact .inr (.inr (.inr ⟨rfl, haddr⟩))
  · exact .inr (.inr (.inl ⟨by decide, hdata⟩))

/-! #### What particular registers show -/

/-- STATUS shows CNT, whose values 0 to 6 fit the three bits (R34). -/
theorem statusReg_cnt (s : State) : ((statusReg s).extractLsb' 4 3).toNat = s.cnt.val := by
  obtain ⟨_, _, hcnt, _⟩ := statusReg_fields s
  rw [hcnt, toNat_ofNat_of_lt (by omega)]

/-- CRC shows ACC (R35). -/
theorem crcReg_acc (s : State) : (crcReg s).extractLsb' 16 8 = s.acc := by
  obtain ⟨_, _, hacc, _⟩ := byte_lanes 0#8 s.acc s.frame[6] s.crcc
  exact hacc

/-- Before the first reading TCQ, TCC and TFC show the scaling of zero (R29, R201). -/
theorem State.Inv.temperature_registers_of_no_reading {s : State} (h : s.Inv) (hv : s.valid = false) :
    regValue s 0x7 = some 0xFCE00000 ∧ regValue s 0xA = some 0x80001388 ∧
    regValue s 0xB = some 0x800016A8 := by
  obtain ⟨hh, ht⟩ := h.noReading hv
  have hall := readings_of_zero_raw hh ht
  simp only [List.range', List.map_cons, List.map_nil, List.cons.injEq] at hall
  obtain ⟨_, _, _, htcq, _, _, htcc, htfc, _⟩ := hall
  exact ⟨htcq, htcc, htfc⟩

/-- The raw value 2^19 is 50 °C (R142, R201). -/
theorem regValue_tcq_of_half {s : State} (h : s.rawT = 0x80000) : regValue s 0x7 = some 0x03200000 := by
  have hview : regValue s 0x7 = some (qReg (tcQ s.rawT)) := rfl
  rw [hview, h]
  decide

/-- Settles O18: READ by its address and by its word, and the values of the registers R201 names. -/
theorem readReturnsTheRegister : Obligations.ReadReturnsTheRegister := by
  unfold Obligations.ReadReturnsTheRegister
  refine ⟨fun a s ha => ?_, fun _ => exec_read_of_none rfl,
    fun w s hop h => runWord_of_illegal (isLegal_read_eq_false hop h) s,
    fun s => ⟨statusReg s, exec_read_of_some rfl, statusReg_cnt s⟩,
    fun s => ⟨crcReg s, exec_read_of_some rfl, crcReg_acc s⟩, fun s h hv => ?_,
    fun _ h => exec_read_of_some (regValue_tcq_of_half h)⟩
  · obtain ⟨v, hreg⟩ := exists_regValue ha s
    exact ⟨v, hreg, exec_read_of_some hreg⟩
  · obtain ⟨htcq, htcc, htfc⟩ := h.temperature_registers_of_no_reading hv
    exact ⟨exec_read_of_some htcq, exec_read_of_some htcc, exec_read_of_some htfc⟩

end Sys2Proof.Machine

/-! ### The outcome NONE (R221) -/

namespace Sys2Proof.Machine

/-- A completing PUSH records one of BUSY, CRC_FAIL and OK (R177, R221). -/
theorem complete_res_ne_none (b : Byte) (s : State) : (complete b s).res ≠ resNone := by
  obtain ⟨_, h⟩ | ⟨_, _, h⟩ | ⟨_, _, h⟩ := complete_cases b s <;> rw [h]
  · exact (by decide : resBusy ≠ resNone)
  · exact (by decide : resCrcFail ≠ resNone)
  · exact (by decide : resOk ≠ resNone)

theorem resReadFail_ne_none : resReadFail ≠ resNone := by decide

/-- RES is NONE after a command only where the command kept it (R221). -/
theorem res_eq_none_of_exec {i : Instr} {s t : State} (h : exec i s = .next t) (ht : t.res = resNone) :
    s.res = resNone := by
  obtain ⟨_, rfl⟩ | ⟨_, rfl⟩ | ⟨b, _, _, rfl⟩ | ⟨b, _, _, rfl⟩ | ⟨_, rfl⟩ | ⟨_, _, _, _, rfl⟩ |
    ⟨_, _, _, rfl⟩ := exec_cases h
  case inr.inr.inr.inl => exact absurd ht (complete_res_ne_none b s)
  case inr.inr.inr.inr.inl => exact absurd ht resReadFail_ne_none
  all_goals exact ht

/-- RES is NONE after an edge that is no reset only where the edge kept it (R221). -/
theorem res_eq_none_of_clockEdge {e : Edge} {s t : State} (h : clockEdge e s = .next t)
    (hr : e.rst = false) (ht : t.res = resNone) : s.res = resNone := by
  obtain ⟨hrst, _⟩ | ⟨_, _, rfl⟩ | ⟨_, _, _, _, hi⟩ | ⟨_, _, _, _, rfl⟩ := clockEdge_cases h
  · exact absurd hrst (by simp [hr])
  · exact ht
  · exact res_eq_none_of_exec hi ht
  · exact ht

/-- Settles O28: only ABORT and the completing PUSH write RES, and neither writes NONE. -/
theorem noneOnlyUntilTheFirstOutcome : Obligations.NoneOnlyUntilTheFirstOutcome := by
  unfold Obligations.NoneOnlyUntilTheFirstOutcome
  refine ⟨fun e s hr => ?_, fun s => ⟨setOutcome resReadFail (rearm s), rfl, resReadFail_ne_none⟩,
    fun b s h6 => ⟨complete b s, exec_push_of_eq b s h6, complete_res_ne_none b s⟩⟩
  obtain ⟨t, ht⟩ := clockEdge_answers e s
  exact ⟨t, ht, res_eq_none_of_clockEdge ht hr⟩

end Sys2Proof.Machine

/-! ### The decoder as the inverse of the encoder, and the invariant from reset on (R22 to R31, R70 to R78) -/

namespace Sys2Proof.Machine

/-- Settles O2: `encode` carries the fields that `decode` reads. -/
theorem decodeOfEncode : Obligations.DecodeOfEncode := by
  unfold Obligations.DecodeOfEncode
  exact fun _ hwf => decode_encode hwf

/-- Settles O31: a step is an edge or nothing, an edge a reset, a command or ILL, and each of them keeps the
invariant. -/
theorem everyStepKeepsTheInvariant : Obligations.EveryStepKeepsTheInvariant := by
  unfold Obligations.EveryStepKeepsTheInvariant
  exact fun _ _ h hs => h.step hs

/-- Settles O3: the decoder answers well-formed commands only, each from its own word. -/
theorem legalWordIsItsCommandsWord : Obligations.LegalWordIsItsCommandsWord := by
  unfold Obligations.LegalWordIsItsCommandsWord
  exact fun _ _ h => ⟨decode_legal_wf h, encode_of_decode h⟩

/-- Settles O30: the coming edges take no part in the invariant. -/
theorem resetHasTheInvariant : Obligations.ResetHasTheInvariant := by
  unfold Obligations.ResetHasTheInvariant
  exact fun es => State.reset_inv.withUnobserved false 0x00000000 es 0

end Sys2Proof.Machine

/-! ### One step: the nearest edge, and what it carries (R45, R46, R226, R229, R250) -/

namespace Sys2Proof.Machine

theorem step_of_no_edge {s : State} (h : s.edges = []) : step s = .next s := by
  simp only [step, h]

/-- A step takes the nearest edge off the list and does what it says (R45; log 1). -/
theorem step_of_edge {s : State} {e : Edge} {rest : List Edge} (h : s.edges = e :: rest) :
    step s = clockEdge e { s with edges := rest } := by
  simp only [step, dropEdge, h, List.tail_cons]

theorem clockEdge_of_reset {e : Edge} (hr : e.rst = true) (s : State) :
    clockEdge e s = .next (resetEdge s) := by
  simp [clockEdge, hr]

theorem clockEdge_of_idle {e : Edge} (hr : e.rst = false) (hv : e.cmdValid = false) (s : State) :
    clockEdge e s = .next s := by
  simp [clockEdge, hr, hv]

theorem clockEdge_of_command {e : Edge} (hr : e.rst = false) (hv : e.cmdValid = true) (s : State) :
    clockEdge e s = runWord e.cmd s := by
  simp [clockEdge, hr, hv]

theorem runWord_of_legal {w : Cmd} {i : Instr} (h : decode w = .legal i) (s : State) :
    runWord w s = exec i s := by
  simp only [runWord, h]

/-- A word presented at the next edge is what the next step runs, in the state before (log 1). -/
theorem step_presentCmd (w : Cmd) (s : State) : step (presentCmd w s) = runWord w s := rfl

theorem decode_of_decodeTableWord {nbits w : Nat} {i : Instr} (h : decodeTableWord nbits w = some i) :
    decode (tableCmd nbits w) = .legal i := by
  unfold decodeTableWord at h
  split at h
  · next j hj => rw [hj, Option.some.inj h]
  · cases h

/-- Settles O8: the nearest edge carries the command, or the presented table word does. -/
theorem stepRunsTheDecodedCommand : Obligations.StepRunsTheDecodedCommand := by
  unfold Obligations.StepRunsTheDecodedCommand
  refine ⟨fun s e rest i he hr hv hd => ?_, fun s nbits w i h => ?_⟩
  · rw [step_of_edge he, clockEdge_of_command hr hv, runWord_of_legal hd]
  · rw [State.withFetchWord, step_presentCmd, runWord_of_legal (decode_of_decodeTableWord h)]

/-- Settles O9: one case for each kind of edge that runs no command. -/
theorem stepWithoutALegalCommand : Obligations.StepWithoutALegalCommand := by
  unfold Obligations.StepWithoutALegalCommand
  refine ⟨fun s h => step_of_no_edge h, fun s e rest he => ?_⟩
  rw [step_of_edge he]
  refine ⟨fun hr => clockEdge_of_reset hr _, fun hr hv => clockEdge_of_idle hr hv _, fun hr hv hw => ?_⟩
  rw [clockEdge_of_command hr hv, runWord_of_illegal hw]
  rfl

/-- Every step completes (R45, R227). -/
theorem step_answers (s : State) : ∃ t, step s = .next t := by
  cases he : s.edges with
  | nil => exact ⟨s, step_of_no_edge he⟩
  | cons e rest =>
    rw [step_of_edge he]
    exact clockEdge_answers e _

/-- Settles O10: every command completes, and with it every edge and every step. -/
theorem everyCommandAndEveryStepCompletes : Obligations.EveryCommandAndEveryStepCompletes := by
  unfold Obligations.EveryCommandAndEveryStepCompletes
  exact ⟨exec_answers, step_answers⟩

/-- A reset edge gives every element the registers read its reset value (R250). -/
theorem regValue_resetEdge (s : State) (a : RegAddr) :
    regValue (resetEdge s) a = regValue State.reset a :=
  regValue_congr a rfl rfl rfl rfl rfl rfl rfl rfl rfl

/-- The registers after reset (R250). -/
theorem regValue_reset : (List.range 15).map (fun a => regValue State.reset (BitVec.ofNat 4 a)) =
    [some 0x00000000, some 0x00FF006A, some 0x00000000, some 0x00000000, some 0x00000000,
     some 0x00000000, some 0x00000000, some 0xFCE00000, some 0xFC600000, some 0x00000000,
     some 0x80001388, some 0x800016A8, some 0x00000000, some 0x80005000, some 0x80005800] := by
  decide

/-- Settles O35: a reset edge is `resetEdge` whatever it carries; the registers are those of the reset
state. -/
theorem resetEdgeGivesTheResetValues : Obligations.ResetEdgeGivesTheResetValues := by
  unfold Obligations.ResetEdgeGivesTheResetValues
  intro s e rest he hr
  rw [step_of_edge he, clockEdge_of_reset hr]
  refine ⟨_, rfl, rfl, rfl, rfl, rfl, rfl, rfl, rfl, rfl, rfl, rfl, rfl, ?_⟩
  simp only [regValue_resetEdge, regValue_reset]

end Sys2Proof.Machine

/-! ### Which commands write which element (R22, R33, R202) -/

namespace Sys2Proof.Machine

/-- Settles O36: the addresses that READ can name. -/
theorem registerMapIsFifteenRegisters : Obligations.RegisterMapIsFifteenRegisters := by
  unfold Obligations.RegisterMapIsFifteenRegisters
  intro s a
  rw [← Option.isSome_iff_exists, regValue_isSome, readableAddr, decide_eq_true_iff]

/-! #### One case for each form of a command (R22) -/

/-- A completing PUSH reads RX and leaves it, and touches neither RDATA nor the model's own fields (R176). -/
@[simp] theorem complete_unchanged (b : Byte) (s : State) :
    (complete b s).rx = s.rx ∧ (complete b s).rdata = s.rdata ∧ (complete b s).edges = s.edges ∧
    (complete b s).freeIdx = s.freeIdx := by
  obtain ⟨_, h⟩ | ⟨_, _, h⟩ | ⟨_, _, h⟩ := complete_cases b s <;> rw [h] <;> exact ⟨rfl, rfl, rfl, rfl⟩

/-- A completing PUSH that changes the reading has outcome OK and leaves VALID = 1 (R178, R179). -/
theorem complete_changes_reading {b : Byte} {s : State}
    (h : (complete b s).valid ≠ s.valid ∨ (complete b s).rawH ≠ s.rawH ∨ (complete b s).rawT ≠ s.rawT) :
    (complete b s).res = resOk ∧ (complete b s).valid = true := by
  obtain ⟨hok, _, _, hv⟩ | ⟨_, hh, ht, hv⟩ := complete_commits_or_keeps b s
  · exact ⟨hok, hv⟩
  · simp [hh, ht, hv] at h

/-- The only address without a register is 0xF (R33). -/
theorem regValue_eq_none_iff (s : State) (a : RegAddr) : regValue s a = none ↔ a = 0xF := by
  rw [← Option.not_isSome_iff_eq_none, regValue_isSome, readableAddr_iff, not_not]

/-- Settles O24: one case for each form of a command, with the elements it may write. -/
theorem onlyTheNamedCommandsWriteAnElement : Obligations.OnlyTheNamedCommandsWriteAnElement := by
  unfold Obligations.OnlyTheNamedCommandsWriteAnElement
  intro i s
  obtain ⟨t, ht⟩ := exec_answers i s
  refine ⟨t, ht, ?_⟩
  obtain ⟨rfl, rfl⟩ | ⟨rfl, rfl⟩ | ⟨b, rfl, hc, rfl⟩ | ⟨b, rfl, h6, rfl⟩ | ⟨rfl, rfl⟩ |
    ⟨a, v, rfl, hsome, rfl⟩ | ⟨a, rfl, hnone, rfl⟩ := exec_cases ht
  · simp
  · simp
  · simp [hc]
  · have hread := complete_changes_reading (b := b) (s := s)
    simpa [h6, resOk] using hread
  · simp
  · have ha : a ≠ 0xF := fun h => by simp [(regValue_eq_none_iff s a).2 h] at hsome
    simpa using fun _ : v ≠ s.rdata => ha
  · simp [(regValue_eq_none_iff s a).1 hnone]

/-! #### Sequences of NOPs and READs (R202) -/

theorem runCommands_cons_of_next {i : Instr} {s t : State} (h : exec i s = .next t) (is : List Instr) :
    runCommands (i :: is) s = runCommands is t := by
  simp only [runCommands, h]

/-- NOP and READ of a register write nothing but RDATA (R171, R200). -/
theorem exec_nop_or_read {i : Instr} (h : i = .nop ∨ ∃ a : RegAddr, a ≠ 0xF ∧ i = .read a) (s : State) :
    ∃ v, exec i s = .next { s with rdata := v } := by
  obtain rfl | ⟨a, ha, rfl⟩ := h
  · exact ⟨s.rdata, rfl⟩
  · obtain ⟨v, hv⟩ := exists_regValue ha s
    exact ⟨v, exec_read_of_some hv⟩

/-- Any number of them writes nothing but RDATA (R202). -/
theorem runCommands_nops_and_reads {is : List Instr}
    (h : ∀ i ∈ is, i = .nop ∨ ∃ a : RegAddr, a ≠ 0xF ∧ i = .read a) (s : State) :
    ∃ v, runCommands is s = .next { s with rdata := v } := by
  induction is generalizing s with
  | nil => exact ⟨s.rdata, rfl⟩
  | cons i is ih =>
    obtain ⟨hi, his⟩ := List.forall_mem_cons.1 h
    obtain ⟨v, hv⟩ := exec_nop_or_read hi s
    rw [runCommands_cons_of_next hv]
    exact ih his { s with rdata := v }

/-- Settles O19: only RDATA is written, which no register shows. -/
theorem readingDisturbsNothing : Obligations.ReadingDisturbsNothing := by
  unfold Obligations.ReadingDisturbsNothing
  intro is s h
  obtain ⟨v, hv⟩ := runCommands_nops_and_reads h s
  exact ⟨_, hv, rfl, fun a => regValue_congr a rfl rfl rfl rfl rfl rfl rfl rfl rfl⟩

end Sys2Proof.Machine

/-! ### Whole frames: FRAME, FRAMEC and the attempts of the host (R81, R176 to R183) -/

namespace Sys2Proof.Machine

/-- START arms the block for a frame from any state, and the seven PUSHes accept it (R81, R172, R176). -/
theorem runCommands_expandFrame (f : Frame) (is : List Instr) (s : State) :
    runCommands (expandFrame f ++ is) s = runCommands is (acceptFrame s f) := by
  have hstart : exec .start s = .next (rearm s) := rfl
  rw [expandFrame, List.cons_append, runCommands_cons_of_next hstart, runCommands_pushFrame f is (rearm s) rfl rfl]
  rfl

/-- Settles O20: START and the PUSHes of the frame with nothing after them. -/
theorem startAndSevenPushesAcceptTheFrame : Obligations.StartAndSevenPushesAcceptTheFrame := by
  unfold Obligations.StartAndSevenPushesAcceptTheFrame
  intro f s
  rw [← List.append_nil (expandFrame f), runCommands_expandFrame]
  rfl

/-- A frame that is not good leaves the reading (R179). -/
theorem acceptFrame_keeps_reading {f : Frame} (h : goodFrame f = false) (s : State) :
    (acceptFrame s f).rawH = s.rawH ∧ (acceptFrame s f).rawT = s.rawT ∧
    (acceptFrame s f).valid = s.valid := by
  simp [acceptFrame, h]

/-- A good frame is the reading (R178). -/
theorem acceptFrame_commits {f : Frame} (h : goodFrame f = true) (s : State) :
    (acceptFrame s f).rawH = extractH f ∧ (acceptFrame s f).rawT = extractT f ∧
    (acceptFrame s f).valid = true := by
  simp [acceptFrame, h]

theorem acceptFrame_of_busy {f : Frame} (hb : busyFlag f = true) (s : State) :
    (acceptFrame s f).res = resBusy ∧ (acceptFrame s f).rawH = s.rawH ∧ (acceptFrame s f).rawT = s.rawT ∧
    (acceptFrame s f).valid = s.valid :=
  ⟨if_pos hb, acceptFrame_keeps_reading (by simp [goodFrame, hb]) s⟩

theorem acceptFrame_of_crcFail {f : Frame} (hb : busyFlag f = false) (hc : frameCrc f ≠ f[6]) (s : State) :
    (acceptFrame s f).res = resCrcFail ∧ (acceptFrame s f).rawH = s.rawH ∧
    (acceptFrame s f).rawT = s.rawT ∧ (acceptFrame s f).valid = s.valid := by
  refine ⟨?_, acceptFrame_keeps_reading (by simp [goodFrame, crcMatch, hc]) s⟩
  simp [acceptFrame, frameOutcome, crcMatch, hb, hc]

theorem acceptFrame_of_ok {f : Frame} (hb : busyFlag f = false) (hc : frameCrc f = f[6]) (s : State) :
    (acceptFrame s f).res = resOk ∧ (acceptFrame s f).rawH = extractH f ∧
    (acceptFrame s f).rawT = extractT f ∧ (acceptFrame s f).valid = true := by
  refine ⟨?_, acceptFrame_commits ((goodFrame_iff f).2 ⟨hb, hc⟩) s⟩
  simp [acceptFrame, frameOutcome, crcMatch, hb, hc]

/-- Settles O22: the frame of FRAMEC matches its CRC, so its status byte alone decides. -/
theorem frameCPassesTheCrcCheck : Obligations.FrameCPassesTheCrcCheck := by
  unfold Obligations.FrameCPassesTheCrcCheck
  intro d s
  have hc := (crcMatch_iff _).1 (crcMatch_push_crc8 d)
  have hbusy : busyFlag (d.push (crc8 d.toList)) = d[0].getLsbD 7 := by
    rw [busyFlag, Vector.getElem_push_lt (by decide)]
  rw [← hbusy]
  refine ⟨_, startAndSevenPushesAcceptTheFrame _ s, hc, fun hb => (acceptFrame_of_busy hb s).1, fun hb => ?_⟩
  obtain ⟨hok, hh, ht, hv⟩ := acceptFrame_of_ok hb hc s
  exact ⟨hok, hv, hh, ht⟩

/-- A READ of STATUS shows RES in the low bits (R34, R200). -/
theorem statusReg_res (s : State) : (statusReg s).extractLsb' 0 3 = s.res := (statusReg_fields s).1

/-- Settles O23: nothing, ABORT, or the frame as one event with a READ of STATUS after it. -/
theorem attemptsMapToOutcomes : Obligations.AttemptsMapToOutcomes := by
  unfold Obligations.AttemptsMapToOutcomes
  refine fun s => ⟨rfl, ⟨setOutcome resReadFail (rearm s), rfl, rfl, rfl, rfl, rfl⟩, fun f => ?_⟩
  have hread : exec (.read 0x0) (acceptFrame s f) =
      .next { acceptFrame s f with rdata := statusReg (acceptFrame s f) } := exec_read_of_some rfl
  rw [attemptCommands, runCommands_expandFrame, runCommands_cons_of_next hread]
  exact ⟨_, rfl, statusReg_res _, fun hb => acceptFrame_of_busy hb s,
    fun hb hc => acceptFrame_of_crcFail hb hc s, fun hb hc => acceptFrame_of_ok hb hc s⟩

end Sys2Proof.Machine

/-! ### The bit loop as long division (R101) -/

namespace Sys2Proof.Machine

/-- One step of the long division: the term of degree 15 - k is taken out (R101). -/
def divideTerm (r : BitVec 16) (k : Nat) : BitVec 16 :=
  if r.getLsbD (15 - k) then r ^^^ (0x131#16 <<< (7 - k)) else r

theorem polyRemainder_eq (v : BitVec 16) :
    polyRemainder v = ((List.range 8).foldl divideTerm v).setWidth 8 := rfl

/-- Shifting in 16 bits and taking the term of degree 8 out is the shift in 8 bits with feedback (R101). -/
theorem setWidth_crcShift (c : Byte) : (crcShift c).setWidth 16 =
    if c.getLsbD 7 then (c.setWidth 16 <<< 1) ^^^ 0x131#16 else c.setWidth 16 <<< 1 := by
  revert c
  decide +kernel

/-- One division step on a byte standing 8 - k places up is one iteration of the bit loop (R101). -/
theorem divideTerm_shifted (c : Byte) {k : Nat} (hk : k < 8) :
    divideTerm (c.setWidth 16 <<< (8 - k)) k = (crcShift c).setWidth 16 <<< (7 - k) := by
  have htop : (c.setWidth 16 <<< (8 - k)).getLsbD (15 - k) = c.getLsbD 7 := by
    rw [BitVec.getLsbD_shiftLeft, show 15 - k - (8 - k) = 7 by omega]
    simp [show 15 - k < 16 by omega, show 8 - k ≤ 15 - k by omega]
  have hshift : c.setWidth 16 <<< (8 - k) = (c.setWidth 16 <<< 1) <<< (7 - k) := by
    rw [← BitVec.shiftLeft_add, show 1 + (7 - k) = 8 - k by omega]
  rw [divideTerm, htop, setWidth_crcShift, hshift]
  split
  · rw [BitVec.shiftLeft_xor_distrib]
  · rfl

/-- After k terms the remainder is the byte of k iterations, with 8 - k places to go (R101). -/
theorem foldl_divideTerm (c : Byte) {k : Nat} (hk : k ≤ 8) :
    (List.range k).foldl divideTerm (c.setWidth 16 <<< 8) =
      (Nat.repeat crcShift k c).setWidth 16 <<< (8 - k) := by
  induction k with
  | zero => rfl
  | succ k ih =>
    rw [List.range_succ, List.foldl_concat, ih (by omega), divideTerm_shifted _ hk, Nat.repeat,
      Nat.succ_sub_succ 7 k]

/-- The dividend: a byte times x^8 (R101). -/
theorem append_zero_byte (c : Byte) : c ++ 0x00#8 = c.setWidth 16 <<< 8 := by
  simpa using BitVec.setWidth_append_eq_shiftLeft_setWidth_or (w'' := 16) (b := c) (b' := 0x00#8)

/-- Settles O48: the bit loop and the division go term by term. -/
theorem crcStepIsPolynomialDivision : Obligations.CrcStepIsPolynomialDivision := by
  unfold Obligations.CrcStepIsPolynomialDivision
  intro c b
  rw [polyRemainder_eq, append_zero_byte, foldl_divideTerm _ le_rfl, crc8Step]
  simp

/-- Settles O49: the five values evaluated. -/
theorem crcStepCornerCases : Obligations.CrcStepCornerCases := by
  unfold Obligations.CrcStepCornerCases
  decide

end Sys2Proof.Machine

/-! ### The operands of the assembler (R79) -/

namespace Sys2Proof.Machine

/-- A digit character stands for its value (R79). -/
theorem digitVal_digitChar {base d : Nat} (hd : d < base) (hbase : base ≤ 16) :
    digitVal base (Nat.digitChar d) = some d := by
  have hlt : d < 16 := by omega
  interval_cases d <;> exact if_pos hd

/-- One more digit at the end of a number read so far, if both are there. -/
def appendDigit (base : Nat) (read : Option Nat) (c : Char) : Option Nat :=
  read.bind fun n => (digitVal base c).map fun d => base * n + d

theorem numeral_cons (base : Nat) (c : Char) (cs : List Char) :
    numeral base (c :: cs) = (c :: cs).foldl (appendDigit base) (some 0) := rfl

theorem numeral_singleton {base d : Nat} {c : Char} (hc : digitVal base c = some d) :
    numeral base [c] = some d := by
  simp [numeral, hc]

/-- A further digit is the new least significant one (R79). -/
theorem numeral_concat {base m d : Nat} {cs : List Char} {c : Char} (hcs : numeral base cs = some m)
    (hc : digitVal base c = some d) : numeral base (cs ++ [c]) = some (base * m + d) := by
  cases cs with
  | nil => cases hcs
  | cons c' cs =>
    rw [numeral_cons] at hcs
    rw [List.cons_append, numeral_cons, ← List.cons_append, List.foldl_concat, hcs, appendDigit, hc]
    rfl

/-- The digits of a number are read back as that number, in both bases (R79). -/
theorem numeral_toDigits {base : Nat} (hlo : 1 < base) (hhi : base ≤ 16) (n : Nat) :
    numeral base (Nat.toDigits base n) = some n := by
  induction n using Nat.strong_induction_on with
  | h n ih =>
    obtain hn | hn := Nat.lt_or_ge n base
    · rw [Nat.toDigits_of_lt_base hn]
      exact numeral_singleton (digitVal_digitChar hn hhi)
    · have hlast := digitVal_digitChar (Nat.mod_lt n (by omega : base > 0)) hhi
      rw [Nat.toDigits_of_base_le hlo hn, numeral_concat (ih _ (Nat.div_lt_self (by omega) hlo)) hlast,
        Nat.div_add_mod]

theorem isDigit_of_mem_decimal {n : Nat} {c : Char} (h : c ∈ Nat.toDigits 10 n) : c.isDigit = true :=
  Nat.isDigit_of_mem_toDigits (by decide) (by decide) h

/-- Decimal digits do not begin like a hexadecimal number, since x is no digit (R79). -/
theorem number_decimal (n : Nat) : number (Nat.toDigits 10 n) = some n := by
  rw [number, numeral_toDigits (by decide) (by decide)]
  intro cs h
  exact absurd (isDigit_of_mem_decimal (h ▸ by simp : 'x' ∈ Nat.toDigits 10 n)) (by decide)

theorem number_hexadecimal (n : Nat) : number ('0' :: 'x' :: Nat.toDigits 16 n) = some n :=
  numeral_toDigits (by decide) (by decide) n

/-- Decimal digits are no register name, as each name has a letter (R80). -/
theorem lookup_regNames_decimal (n : Nat) : regNames.lookup (Nat.toDigits 10 n) = none := by
  have hnames : ∀ p ∈ regNames, p.1.all Char.isDigit = false := by decide
  have hdigits : (Nat.toDigits 10 n).all Char.isDigit = true :=
    List.all_eq_true.2 fun _ => isDigit_of_mem_decimal
  rw [List.lookup_eq_none_iff]
  intro p hp
  rw [bne_iff_ne]
  intro heq
  rw [heq, hnames p hp] at hdigits
  cases hdigits

theorem asmByte_of_number {cs : List Char} {n : Nat} (h : number cs = some n) :
    asmByte cs = if n < 256 then some (BitVec.ofNat 8 n) else none := by
  rw [asmByte, h, Option.bind_some]

/-- A register by its number (R79, R80). -/
theorem asmReg_decimal (n : Nat) :
    asmReg (Nat.toDigits 10 n) = if n ≤ 14 then some (BitVec.ofNat 4 n) else none := by
  simp only [asmReg, lookup_regNames_decimal, number_decimal, Option.bind_some]

/-- Settles O7: numbers of any size by their digits; the lines and the text are evaluated. -/
theorem assemblerOperands : Obligations.AssemblerOperands := by
  unfold Obligations.AssemblerOperands
  exact ⟨fun n _ => asmByte_of_number (number_decimal n),
    fun n _ => asmByte_of_number (number_hexadecimal n), fun n _ => asmReg_decimal n, by decide, by decide,
    by decide, by decide, by decide, by decide, by decide +kernel⟩

end Sys2Proof.Machine
